-- ==== Sys2Proof/Word.lean ====
section
/-! DEFINITION. The word and byte types: a register value is an unsigned 32-bit word, a buffered byte is 8 bits
(00_scope.md, Notation; R8, R18). -/

namespace Sys2Proof

/-- A register value (R8: "carries a 32-bit value"). -/
abbrev Word := BitVec 32

/-- A byte of the receive buffer, or an outbound byte (R18). -/
abbrev Byte := BitVec 8

end Sys2Proof
end

