-- ==== Sys2Proof/Config.lean ====
section
/-! DEFINITION. The implementation parameters of 00_scope.md ("The model takes each parameter below as an argument"),
the constraints the spec puts on them, and the open values that have no default. -/

namespace Sys2Proof

/-- The seven register roles (R29). -/
inductive Role where
  | txfifo | rxfifo | txctrl | rxctrl | ie | ip | div
deriving DecidableEq, Repr

/-- All seven roles, in the order of R57. -/
def Role.all : List Role := [.txfifo, .rxfifo, .txctrl, .rxctrl, .ie, .ip, .div]

/-- LANE_ORDER: the byte order of the four data bytes on the host bus (R46). DESIGN CHOICE, log 21: the spec names the
default, little-endian, and lists no other value; the model has these two. -/
inductive LaneOrder where
  | littleEndian
  | bigEndian
deriving DecidableEq, Repr

/-- The parameters of one instance (00_scope.md, Implementation parameters; R28). -/
structure Config where
  /-- `C`, the receive buffer's capacity in bytes (R6). -/
  capacity : Nat
  /-- `BASE`, the window's base address (R40). -/
  base : Nat
  /-- `W`, the window's size in bytes (R40). -/
  windowSize : Nat
  offTxfifo : Nat
  offRxfifo : Nat
  offTxctrl : Nat
  offRxctrl : Nat
  offIe : Nat
  offIp : Nat
  offDiv : Nat
  /-- The position of `RXWM_BIT` in IE (R9). -/
  rxwmPos : Fin 32
  /-- The position of `IP_RXWM_BIT` in IP (R9). -/
  ipRxwmPos : Fin 32
  /-- `LANE_ORDER` (R46). -/
  laneOrder : LaneOrder
deriving DecidableEq, Repr

/-- The byte offset `OFF_<REG>` of a register (R7). -/
def Config.off (c : Config) : Role → Nat
  | .txfifo => c.offTxfifo
  | .rxfifo => c.offRxfifo
  | .txctrl => c.offTxctrl
  | .rxctrl => c.offRxctrl
  | .ie => c.offIe
  | .ip => c.offIp
  | .div => c.offDiv

/-- The constraints of R6 (`C >= 1`, D27), R7 (each offset a multiple of 4, the seven pairwise distinct, each below
`W`, `OFF_DIV` the highest) and R40 (`W >= OFF_DIV + 4`). `W` has no upper bound. -/
abbrev Config.Valid (c : Config) : Prop :=
  1 ≤ c.capacity ∧
  (∀ r ∈ Role.all, c.off r % 4 = 0) ∧
  (Role.all.map c.off).Nodup ∧
  (∀ r ∈ Role.all, c.off r < c.windowSize) ∧
  (∀ r ∈ Role.all, c.off r ≤ c.offDiv) ∧
  c.offDiv + 4 ≤ c.windowSize

/-- `BASE` of the instance after reset: "supplied by the host at construction", with no default (00_scope.md; D33).
A free value, log 4. -/
opaque Config.openBase : Nat

/-- The text of a fault's diagnostic: "Its text format is not specified" (R102, R120; U14 `any value`). A free value,
log 7: of the fault's code, the faulting address, whether it was a write, and the written value. -/
opaque Config.faultText : Nat → Nat → Bool → Option Word → String

/-- The text of the warning of a dropped byte (R95, R120; U14 `any value`). A free value, log 7. -/
opaque Config.dropText : Byte → String

end Sys2Proof
end

