-- ==== Sys2Proof/Machine/Params.lean ====
section
/-! DEFINITION. The parameter values of this hardware (00_scope.md, Implementation parameters), and the two bit masks a
configuration gives. -/

namespace Sys2Proof

/-- The default parameters: `C = 8` (source §3), the offsets of D2, `W = 0x20` (D4), `RXWM_BIT = IP_RXWM_BIT = 0x2`
(D3), little-endian lanes (D6); `BASE` is open (D33). PRESUMED, log 4: the offsets, `W`, the bit positions and the lane
order are the spec's defaults from general knowledge (93_implementation_defined.md K7 to K10). -/
def Config.thisHardware : Config where
  capacity := 8
  base := Config.openBase
  windowSize := 0x20
  offTxfifo := 0x00
  offRxfifo := 0x04
  offTxctrl := 0x08
  offRxctrl := 0x0C
  offIe := 0x10
  offIp := 0x14
  offDiv := 0x18
  rxwmPos := 1
  ipRxwmPos := 1
  laneOrder := .littleEndian

/-- `RXWM_BIT`, the mask of the receive-watermark enable bit in IE (R9). -/
def Config.rxwmBit (c : Config) : Word := 1#32 <<< c.rxwmPos.val

/-- `IP_RXWM_BIT`, the mask of the receive-watermark pending bit in IP (R9). -/
def Config.ipRxwmBit (c : Config) : Word := 1#32 <<< c.ipRxwmPos.val

end Sys2Proof
end

