-- ==== Sys2Proof/Syntax.lean ====
section
/-! DEFINITION. The requests an agent can make, as raw descriptors (R59) and as decoded operations: one constructor of
`Instr` per row of spec/opcode_table.json. Also the spec's text form of requests (R69) as abstract syntax. -/

namespace Sys2Proof

/-- The direction of a bus access (R41). -/
inductive Direction where
  | read
  | write
deriving DecidableEq, Repr

/-- The field `kind`, bits 7:6 of a descriptor (R59). -/
inductive Kind where
  | busRead
  | busWrite
  | deliver
  | control
deriving DecidableEq, Repr

/-- A backend lifecycle event kind: opaque, "such as connect or disconnect"; the set of kinds is a parameter (R96,
D20). DESIGN CHOICE, log 8: the two kinds named and a tag for any other. -/
inductive EventKind where
  | connect
  | disconnect
  | other (tag : Nat)
deriving DecidableEq, Repr

/-- The operands that travel beside a descriptor (R59). Every slot is always there; a kind reads only its own. -/
structure Operands where
  /-- the access size in bytes (bus kinds) -/
  size : Nat
  /-- the written value (bus write) -/
  v : Word
  /-- the delivered byte (deliver) -/
  b : Byte
  /-- the event kind (BACKEND_EVENT) -/
  ev : EventKind
deriving DecidableEq, Repr

/-- A transaction descriptor (R59): the two bits `kind` above the bits `sel`, which are six for a window of `W <= 64`;
"A model with a larger `W` widens `sel` and leaves the rest of the format unchanged". DEDUCED, log 5: a descriptor carries
the width of its own `sel`, and any width from six bits up is taken for any window. -/
structure Descriptor where
  /-- how many bits `sel` has beyond its six; 0 is the 8-bit descriptor `d[7:0]` -/
  extra : Nat
  bits : BitVec (2 + (6 + extra))
deriving DecidableEq, Repr

/-- The 8-bit descriptor `d[7:0]` (R59). -/
def Descriptor.ofByte (d : Byte) : Descriptor := { extra := 0, bits := d }

/-- One request as it reaches the block. -/
inductive Request where
  /-- a transaction descriptor with its operands (R59) -/
  | transaction (d : Descriptor) (ops : Operands)
  /-- an instruction fetch from the window, which "is not an operation of this block" (R56) -/
  | instructionFetch (off : Nat)
deriving DecidableEq, Repr

/-- The operations of the block, one constructor per row of spec/opcode_table.json. `size` is the access size in bytes,
`v` the written value, `off` the window offset, `b` the delivered byte, `ev` the event kind. -/
inductive Instr where
  | rdTxfifo (size : Nat)
  | rdRxfifo (size : Nat)
  | rdTxctrl (size : Nat)
  | rdRxctrl (size : Nat)
  | rdIe (size : Nat)
  | rdIp (size : Nat)
  | rdDiv (size : Nat)
  | rdUnmapped (off size : Nat)
  | wrTxfifo (size : Nat) (v : Word)
  | wrRxfifo (size : Nat) (v : Word)
  | wrTxctrl (size : Nat) (v : Word)
  | wrRxctrl (size : Nat) (v : Word)
  | wrIe (size : Nat) (v : Word)
  | wrIp (size : Nat) (v : Word)
  | wrDiv (size : Nat) (v : Word)
  | wrUnmapped (off size : Nat) (v : Word)
  | deliver (b : Byte)
  | canAccept
  | backendEvent (ev : EventKind)
  | reconnect
deriving DecidableEq, Repr

/-- The kind of request an operation comes from (the "format" column of the opcode table; R60 to R63). -/
def Instr.kind : Instr → Kind
  | .rdTxfifo _ | .rdRxfifo _ | .rdTxctrl _ | .rdRxctrl _ | .rdIe _ | .rdIp _ | .rdDiv _ | .rdUnmapped _ _ => .busRead
  | .wrTxfifo _ _ | .wrRxfifo _ _ | .wrTxctrl _ _ | .wrRxctrl _ _ | .wrIe _ _ | .wrIp _ _ | .wrDiv _ _
  | .wrUnmapped _ _ _ => .busWrite
  | .deliver _ => .deliver
  | .canAccept | .backendEvent _ | .reconnect => .control

/-- What a bus request of R69 addresses: a register by name, or a raw offset (`@<off>`). -/
inductive Target where
  | reg (r : Role)
  | raw (off : Nat)
deriving DecidableEq, Repr

/-- One line of the spec's transaction text (R69). `RD <REG>` is `rd 4 (.reg …)`, `RD.<n>` gives another size. -/
inductive Line where
  | rd (size : Nat) (t : Target)
  | wr (size : Nat) (t : Target) (v : Word)
  | rx (b : Byte)
  | canrx
  | event (ev : EventKind)
  | reconnect
deriving DecidableEq, Repr

end Sys2Proof
end

