-- ==== Sys2Proof/WellFormed.lean ====
section
/-! DEFINITION. When an operation can come from a request: the offset of an unmapped access lies in the window and names
no register (R80, R89). Every other operation is well formed with any operands: its `size` may be wrong, which is a fault
of the access and not of the term (R65). -/

namespace Sys2Proof

/-- `off` is the offset of one of the seven registers (R29, R57). -/
def Config.isRegisterOffset (c : Config) (off : Nat) : Bool := Role.all.any fun r => c.off r == off

/-- The operand check of each operation. -/
def Instr.wf (c : Config) : Instr → Bool
  | .rdUnmapped off _ => decide (off < c.windowSize) && !c.isRegisterOffset off
  | .wrUnmapped off _ _ => decide (off < c.windowSize) && !c.isRegisterOffset off
  | .rdTxfifo _ | .rdRxfifo _ | .rdTxctrl _ | .rdRxctrl _ | .rdIe _ | .rdIp _ | .rdDiv _ => true
  | .wrTxfifo _ _ | .wrRxfifo _ _ | .wrTxctrl _ _ | .wrRxctrl _ _ | .wrIe _ _ | .wrIp _ _ | .wrDiv _ _ => true
  | .deliver _ | .canAccept | .backendEvent _ | .reconnect => true

end Sys2Proof
end

