-- ==== Sys2Proof/Decode.lean ====
section
/-! DEFINITION. Address decode (R57), the transaction descriptor (R59), the decoder (R58 to R67), total on every request
and rejecting by name, and the encoder written from the same tables. -/

namespace Sys2Proof

/-- `decode_off` of R57; `none` is UNMAPPED. -/
def decodeOff (c : Config) (off : Nat) : Option Role :=
  if off = c.offTxfifo then some .txfifo
  else if off = c.offRxfifo then some .rxfifo
  else if off = c.offTxctrl then some .txctrl
  else if off = c.offRxctrl then some .rxctrl
  else if off = c.offIe then some .ie
  else if off = c.offIp then some .ip
  else if off = c.offDiv then some .div
  else none

/-- The two bits `kind` of a descriptor (R59). -/
def Kind.bits : Kind → BitVec 2
  | .busRead => 0b00#2
  | .busWrite => 0b01#2
  | .deliver => 0b10#2
  | .control => 0b11#2

/-- How many bits `sel` needs beyond its six to hold every offset of the window (R59): none for `W <= 64`. DEDUCED,
log 5: a wider `sel` has as many bits as the highest offset `W - 1` takes. -/
def Config.selExtra (c : Config) : Nat := Nat.log2 (c.windowSize - 1) - 5

/-- The two bits above `sel`, 7:6 of an 8-bit descriptor (R59). -/
def kindOf (d : Descriptor) : Kind :=
  match (d.bits.extractLsb' (6 + d.extra) 2).toNat with
  | 0 => .busRead
  | 1 => .busWrite
  | 2 => .deliver
  | _ => .control

/-- The bits `sel` below `kind`, 5:0 of an 8-bit descriptor, an unsigned number (R59, R64). -/
def selOf (d : Descriptor) : Nat := (d.bits.extractLsb' 0 (6 + d.extra)).toNat

/-- The descriptor `kind || sel` in the width of this configuration's format (R59). -/
def descriptor (c : Config) (k : Kind) (sel : Nat) : Descriptor :=
  { extra := c.selExtra, bits := k.bits ++ BitVec.ofNat (6 + c.selExtra) sel }

/-- Why a request has no meaning (R66, R56). -/
inductive Rejection where
  /-- `kind = 0b10` with `sel != 0`, or `kind = 0b11` with `sel >= 3` (R66) -/
  | undefinedDescriptor (d : Descriptor)
  /-- a bus descriptor with `off >= W`: the access never reaches the block (R66, R42) -/
  | outsideWindow (off : Nat)
  /-- an instruction fetch from the window (R56) -/
  | instructionFetch (off : Nat)
deriving DecidableEq, Repr

/-- What the decoder gives: an operation (its faults included, R65), or a rejection by name. -/
inductive Decoded where
  | instr (i : Instr)
  | rejected (why : Rejection)
deriving DecidableEq, Repr

/-- The read column of R58's table. -/
def decodeRead (c : Config) (off size : Nat) : Instr :=
  match decodeOff c off with
  | some .txfifo => .rdTxfifo size
  | some .rxfifo => .rdRxfifo size
  | some .txctrl => .rdTxctrl size
  | some .rxctrl => .rdRxctrl size
  | some .ie => .rdIe size
  | some .ip => .rdIp size
  | some .div => .rdDiv size
  | none => .rdUnmapped off size

/-- The write column of R58's table. -/
def decodeWrite (c : Config) (off size : Nat) (v : Word) : Instr :=
  match decodeOff c off with
  | some .txfifo => .wrTxfifo size v
  | some .rxfifo => .wrRxfifo size v
  | some .txctrl => .wrTxctrl size v
  | some .rxctrl => .wrRxctrl size v
  | some .ie => .wrIe size v
  | some .ip => .wrIp size v
  | some .div => .wrDiv size v
  | none => .wrUnmapped off size v

/-- The sub-operations of `kind = 0b11` (R63). -/
def decodeControl (d : Descriptor) (ev : EventKind) : Decoded :=
  match selOf d with
  | 0 => .instr .canAccept
  | 1 => .instr (.backendEvent ev)
  | 2 => .instr .reconnect
  | _ => .rejected (.undefinedDescriptor d)

/-- The decoder (R58 to R67). A wrong size stays in the decoded operation: its check comes first when the operation
runs (R107). -/
def decode (c : Config) : Request → Decoded
  | .instructionFetch off => .rejected (.instructionFetch off)
  | .transaction d ops =>
    match kindOf d with
    | .busRead =>
      if selOf d < c.windowSize then .instr (decodeRead c (selOf d) ops.size)
      else .rejected (.outsideWindow (selOf d))
    | .busWrite =>
      if selOf d < c.windowSize then .instr (decodeWrite c (selOf d) ops.size ops.v)
      else .rejected (.outsideWindow (selOf d))
    | .deliver =>
      if selOf d = 0 then .instr (.deliver ops.b) else .rejected (.undefinedDescriptor d)
    | .control => decodeControl d ops.ev

/-- The operands of a request whose row gives them no bits: the size the rows ask for, 4 ("size: operand, must be 4"),
and every other operand zero. DESIGN CHOICE, log 10. -/
def Operands.plain : Operands := { size := 4, v := 0, b := 0, ev := .connect }

/-- A bus read's request (R60). -/
def encodeRead (c : Config) (off size : Nat) : Request :=
  .transaction (descriptor c .busRead off) { Operands.plain with size := size }

/-- A bus write's request (R61). -/
def encodeWrite (c : Config) (off size : Nat) (v : Word) : Request :=
  .transaction (descriptor c .busWrite off) { Operands.plain with size := size, v := v }

/-- The encoder: the descriptor and operands of an operation (R60 to R63, R70), written from the spec's tables. -/
def encode (c : Config) : Instr → Request
  | .rdTxfifo size => encodeRead c c.offTxfifo size
  | .rdRxfifo size => encodeRead c c.offRxfifo size
  | .rdTxctrl size => encodeRead c c.offTxctrl size
  | .rdRxctrl size => encodeRead c c.offRxctrl size
  | .rdIe size => encodeRead c c.offIe size
  | .rdIp size => encodeRead c c.offIp size
  | .rdDiv size => encodeRead c c.offDiv size
  | .rdUnmapped off size => encodeRead c off size
  | .wrTxfifo size v => encodeWrite c c.offTxfifo size v
  | .wrRxfifo size v => encodeWrite c c.offRxfifo size v
  | .wrTxctrl size v => encodeWrite c c.offTxctrl size v
  | .wrRxctrl size v => encodeWrite c c.offRxctrl size v
  | .wrIe size v => encodeWrite c c.offIe size v
  | .wrIp size v => encodeWrite c c.offIp size v
  | .wrDiv size v => encodeWrite c c.offDiv size v
  | .wrUnmapped off size v => encodeWrite c off size v
  | .deliver b => .transaction (descriptor c .deliver 0) { Operands.plain with b := b }
  | .canAccept => .transaction (descriptor c .control 0) Operands.plain
  | .backendEvent ev => .transaction (descriptor c .control 1) { Operands.plain with ev := ev }
  | .reconnect => .transaction (descriptor c .control 2) Operands.plain

/-- The request whose descriptor is the table's word `w` of `nbits` bits, bits above `nbits` zero; the operands travel
beside it and are `Operands.plain`. -/
def tableRequest (nbits w : Nat) : Request := .transaction (.ofByte (BitVec.ofNat 8 (w % 2 ^ nbits))) Operands.plain

/-- The operation this hardware's decoder reads from a word of spec/opcode_table.json. -/
def decodeTableWord (nbits w : Nat) : Option Instr :=
  match decode Config.thisHardware (tableRequest nbits w) with
  | .instr i => some i
  | .rejected _ => none

end Sys2Proof
end

