-- ==== Sys2Proof/Machine/State.lean ====
section
/-! DEFINITION. The state of one instance (R16, R26, R27), the outputs it records, the reasons a step can stop, and the
initial state (R36). -/

namespace Sys2Proof.Machine

/-- The three fault kinds (R102). -/
inductive FaultKind where
  /-- `F_WIDTH`: a bus access whose size is not 4 (R103) -/
  | width
  /-- `F_UNMAPPED`: a 4-byte bus access at an offset that selects no register (R104) -/
  | unmapped
  /-- `F_UNDEF_WRITE`: a 4-byte bus write to RXFIFO or to IP (R105) -/
  | undefWrite
deriving DecidableEq, Repr

/-- The block's output events (R27). -/
inductive Event where
  /-- one outbound byte handed to the backend's `write` -/
  | txByte (b : Byte)
  /-- the signal that "one more slot is free" -/
  | slotFreed
  /-- the warning of a receive overrun, naming the dropped byte -/
  | dropWarning (b : Byte)
  /-- a call of the line's `assert()` (true) or `deassert()` (false) -/
  | drive (level : Bool)
  /-- the report of a fault: its kind, offset, direction, and the written value of a write -/
  | diagnostic (kind : FaultKind) (off : Nat) (dir : Direction) (value : Option Word)
deriving DecidableEq, Repr

/-- A value a step returns to the agent that made the request. -/
inductive Answer where
  /-- the 32-bit data of a bus read (R81) -/
  | data (v : Word)
  /-- the Boolean of `can_accept` (R92) -/
  | accept (ready : Bool)
  /-- the success of `on_backend_reconnected` (R97) -/
  | success
deriving DecidableEq, Repr

/-- Why no step follows. -/
inductive Fault where
  /-- Raised by every operation, and by `step`, in a state whose fault flag is set: "no further step of either agent
  occurs" (R106). The step that RAISES a fault of R102 is not this one: it is a next state with the flag set and the
  diagnostic logged. Safe: it stops where the spec says nothing follows. -/
  | deviceFaulted
deriving DecidableEq, Repr

/-- Why a request has no meaning. -/
inductive Refusal where
  /-- Raised by an arm of `exec` whose operation has no meaning yet. Safe. -/
  | notModelled (mnemonic : String)
  /-- Raised by `step` on a descriptor that names no operation of the block (R66). Safe: the spec refuses it. -/
  | undefinedDescriptor (d : Descriptor)
  /-- Raised by `step` on a bus descriptor with `off >= W`: the access never reaches the block (R66, R42). Safe. -/
  | outsideWindow (off : Nat)
  /-- Raised by `step` on an instruction fetch from the window: "The model refuses it" (R56, D16). Safe. -/
  | instructionFetch (off : Nat)
  /-- Raised by `step` when the parameters break a constraint of R6, R7 or R40: "`C = 0` is refused as a
  configuration" (D27). That the others ("must satisfy", "must be at least") are refused in the same way is DEDUCED,
  log 5. No run from a valid configuration meets it. Safe. -/
  | badConfiguration
deriving DecidableEq, Repr

/-- One instance: its parameters, its device state, the model state the spec adds, and what the agents ask and get. -/
structure State where
  /-- the parameters (R28), which no step changes; the model's own field, log 1 -/
  cfg : Config
  /-- `S.rx`, front first (R17) -/
  rx : List Byte
  /-- `S.ie` (R20) -/
  ie : Word
  /-- `S.txctrl` (R21) -/
  txctrl : Word
  /-- `S.rxctrl` (R22) -/
  rxctrl : Word
  /-- `S.div` (R23) -/
  div : Word
  /-- `S.faulted` (R26) -/
  faulted : Bool
  /-- `S.log`, oldest first (R27) -/
  log : List Event
  /-- the requests in the order the host serialises them, not yet taken (R52, R53); the model's own field, log 2 -/
  requests : List Request
  /-- the values returned so far, oldest first (R12, R81); the model's own field, log 6 -/
  answers : List Answer
deriving DecidableEq, Repr

/-- The state at instantiation (R36), for any parameters. The zero values are the spec's own decision D11, log 3. -/
def State.initial (c : Config) : State where
  cfg := c
  rx := []
  ie := 0x0000_0000#32
  txctrl := 0x0000_0000#32
  rxctrl := 0x0000_0000#32
  div := 0x0000_0000#32
  faulted := false
  log := []
  requests := []
  answers := []

/-- The state at instantiation of this hardware (R36, R123). -/
def State.reset : State := State.initial Config.thisHardware

end Sys2Proof.Machine
end

