-- ==== Sys2Proof/Machine/Operands.lean ====
section
/-! DEFINITION. The operand forms (R64) and the byte lanes of the bus (R46). -/

namespace Sys2Proof.Machine

/-- `zext_32(b)`: the byte an RXFIFO read returns (R64, R30). -/
def zext32 (b : Byte) : Word := b.setWidth 32

/-- `v[7:0]`: the byte a TXFIFO write sends (R64, R82). -/
def lowByte (v : Word) : Byte := v.setWidth 8

/-- The sentinel of an empty RXFIFO read (R13, R30). -/
def sentinel : Word := 0x8000_0000#32

/-- The code of a fault kind (R102). -/
def FaultKind.code : FaultKind → Nat
  | .width => 1
  | .unmapped => 2
  | .undefWrite => 3

/-- The faulting address of a diagnostic, `BASE + off` (R102). -/
def faultAddress (c : Config) (off : Nat) : Nat := c.base + off

/-- The bytes of a register value at `BASE+off .. BASE+off+3`, lowest address first (R46). DESIGN CHOICE, log 21: the
big-endian order. -/
def laneBytes : LaneOrder → Word → List Byte
  | .littleEndian, v => [v.extractLsb' 0 8, v.extractLsb' 8 8, v.extractLsb' 16 8, v.extractLsb' 24 8]
  | .bigEndian, v => [v.extractLsb' 24 8, v.extractLsb' 16 8, v.extractLsb' 8 8, v.extractLsb' 0 8]

/-- The register value of the four bytes at `BASE+off .. BASE+off+3`, lowest address first (R46). DESIGN CHOICE, log 21:
the big-endian order. -/
def laneWord : LaneOrder → Byte → Byte → Byte → Byte → Word
  | .littleEndian, b0, b1, b2, b3 => b3 ++ b2 ++ b1 ++ b0
  | .bigEndian, b0, b1, b2, b3 => b0 ++ b1 ++ b2 ++ b3

/-- A register value as the bus master sees it at the byte addresses of the register (R46). -/
def registerCells (c : Config) (off : Nat) (v : Word) : List Host.Cell :=
  ((List.range 4).map (fun k => c.base + off + k)).zip (laneBytes c.laneOrder v)

end Sys2Proof.Machine
end

