-- ==== Sys2Proof/Machine/Flags.lean ====
section
/-! DEFINITION. The derived conditions: the interrupt condition (R24), the pending status (R25), the flow-control gate
(R93), the level of the line (R32, I3) and the buffer state (R14). -/

namespace Sys2Proof.Machine

/-- `irq(S)` (R24). -/
def irq (s : State) : Bool := (s.ie &&& s.cfg.rxwmBit != 0) && decide (s.rx.length > 0)

/-- `ip(S)` (R25). -/
def ip (s : State) : Word := if s.rx.length > 0 then s.cfg.ipRxwmBit else 0x0000_0000#32

/-- `rx_ready(S)` (R93), the value of `can_accept` (R92). -/
def rxReady (s : State) : Bool := decide (s.rx.length < s.cfg.capacity)

/-- What one event does to the level of the line: only a `Drive` sets it (R32, I3). -/
def levelAfter (level : Bool) : Event → Bool
  | .drive l => l
  | .txByte _ | .slotFreed | .dropWarning _ | .diagnostic _ _ _ _ => level

/-- The level the line keeps: "the argument of the last `Drive` event in `S.log`, or false if there is none" (R32, I3;
90_conflicts.md C6). -/
def State.line (s : State) : Bool := s.log.foldl levelAfter false

/-- The buffer states of R14. -/
inductive BufferState where
  | empty
  | partly
  | full
deriving DecidableEq, Repr

/-- EMPTY, PARTIAL or FULL (R14, R98). -/
def bufferState (s : State) : BufferState :=
  if s.rx.length = 0 then .empty else if s.rx.length < s.cfg.capacity then .partly else .full

end Sys2Proof.Machine
end

