-- ==== Sys2Proof/Machine/Ops.lean ====
section
/-! DEFINITION. The shared operations: writing one field, emitting an event, answering, raising a fault, recomputing the
line, and the common checks of every operation (R81, R90, R101, R107). -/

namespace Sys2Proof.Machine

def State.setRx (s : State) (bytes : List Byte) : State := { s with rx := bytes }

def State.setIe (s : State) (v : Word) : State := { s with ie := v }

def State.setTxctrl (s : State) (v : Word) : State := { s with txctrl := v }

def State.setRxctrl (s : State) (v : Word) : State := { s with rxctrl := v }

def State.setDiv (s : State) (v : Word) : State := { s with div := v }

def State.setRequests (s : State) (rs : List Request) : State := { s with requests := rs }

def State.markFaulted (s : State) : State := { s with faulted := true }

/-- `emit E` (00_scope.md, Notation; R27). -/
def State.emit (s : State) (e : Event) : State := { s with log := s.log ++ [e] }

/-- `return v`: the value goes to the agent in the same step (R81). -/
def State.answer (s : State) (a : Answer) : State := { s with answers := s.answers ++ [a] }

/-- `raise F(off, dir, value)` (R102): the ONE way a fault is taken. It sets the flag and emits the diagnostic, and
writes nothing else (R50). -/
def raiseFault (k : FaultKind) (off : Nat) (dir : Direction) (value : Option Word) (s : State) : State :=
  s.markFaulted.emit (.diagnostic k off dir value)

/-- `recompute_irq()` (R108). -/
def recomputeIrq (s : State) : State := s.emit (.drive (irq s))

/-- The common check of every operation: once the fault flag is set there is no step (R101, R106). -/
def whenLive (s : State) (body : State → State) : Host.Outcome State Fault Refusal :=
  if s.faulted then .fault .deviceFaulted else .next (body s)

/-- The common checks of a bus access (R81, R90, R107): the fault flag, then the size, then the body. -/
def busAccess (size off : Nat) (dir : Direction) (value : Option Word) (s : State) (body : State → State) :
    Host.Outcome State Fault Refusal :=
  whenLive s fun s => if size = 4 then body s else raiseFault .width off dir value s

/-- A bus read's checks. -/
def busRead (size off : Nat) (s : State) (body : State → State) : Host.Outcome State Fault Refusal :=
  busAccess size off .read none s body

/-- A bus write's checks. -/
def busWrite (size off : Nat) (v : Word) (s : State) (body : State → State) : Host.Outcome State Fault Refusal :=
  busAccess size off .write (some v) s body

/-- The body of a non-faulting RXFIFO read (R73). -/
def popFront (s : State) : State :=
  match s.rx with
  | b :: rest => (recomputeIrq ((s.setRx rest).emit .slotFreed)).answer (.data (zext32 b))
  | [] => s.answer (.data sentinel)

/-- The body of `deliver(b)` (R94, R95). -/
def enqueue (b : Byte) (s : State) : State :=
  if rxReady s then recomputeIrq (s.setRx (s.rx ++ [b])) else s.emit (.dropWarning b)

/-- The refusal of a request the decoder rejects (R66, R56). -/
def refusalOf : Rejection → Refusal
  | .undefinedDescriptor d => .undefinedDescriptor d
  | .outsideWindow off => .outsideWindow off
  | .instructionFetch off => .instructionFetch off

/-- The next request in the host's order, and the state with it taken (R52). -/
def takeRequest (s : State) : Option (Request × State) :=
  match s.requests with
  | [] => none
  | r :: rest => some (r, s.setRequests rest)

/-- No request is there to take: nothing in the block acts without a call from outside (R10, R100), and its state
persists (R123). DESIGN CHOICE, log 11. -/
def idle (s : State) : Host.Outcome State Fault Refusal := .next s

/-- The unspecified text of a report (R120): a free value, for the two diagnostic outputs. -/
def reportText (c : Config) : Event → Option String
  | .diagnostic k off dir value => some (Config.faultText k.code (faultAddress c off) (dir == .write) value)
  | .dropWarning b => some (Config.dropText b)
  | .txByte _ | .slotFreed | .drive _ => none

end Sys2Proof.Machine
end

