-- ==== Sys2Proof/Machine/ReceivePath.lean ====
section
/-! DEFINITION. The backend operations (42_receive_path.md, R92 to R101). -/

namespace Sys2Proof.Machine

/-- DELIVER (R94), dropping the byte on overrun (R95). -/
def execDeliver (b : Byte) (s : State) : Host.Outcome State Fault Refusal := whenLive s (enqueue b)

/-- CAN_ACCEPT (R92). -/
def execCanAccept (s : State) : Host.Outcome State Fault Refusal :=
  whenLive s fun s => s.answer (.accept (rxReady s))

/-- BACKEND_EVENT (R96): observed, with no effect, whatever the kind of event (D20). -/
def execBackendEvent (_ev : EventKind) (s : State) : Host.Outcome State Fault Refusal := whenLive s fun s => s

/-- RECONNECT (R97): returns success and changes no device state; no registration state is kept (D21). -/
def execReconnect (s : State) : Host.Outcome State Fault Refusal := whenLive s fun s => s.answer .success

end Sys2Proof.Machine
end

