-- ==== Sys2Proof/Machine/RegisterRead.lean ====
section
/-! DEFINITION. The register reads (40_register_read.md, R73 to R81). -/

namespace Sys2Proof.Machine

/-- RD_TXFIFO (R74): "Returns 0 unconditionally". -/
def execRdTxfifo (size : Nat) (s : State) : Host.Outcome State Fault Refusal :=
  busRead size s.cfg.offTxfifo s fun s => s.answer (.data 0x0000_0000#32)

/-- RD_RXFIFO (R73). -/
def execRdRxfifo (size : Nat) (s : State) : Host.Outcome State Fault Refusal :=
  busRead size s.cfg.offRxfifo s popFront

/-- RD_TXCTRL (R77). -/
def execRdTxctrl (size : Nat) (s : State) : Host.Outcome State Fault Refusal :=
  busRead size s.cfg.offTxctrl s fun s => s.answer (.data s.txctrl)

/-- RD_RXCTRL (R78). -/
def execRdRxctrl (size : Nat) (s : State) : Host.Outcome State Fault Refusal :=
  busRead size s.cfg.offRxctrl s fun s => s.answer (.data s.rxctrl)

/-- RD_IE (R75). -/
def execRdIe (size : Nat) (s : State) : Host.Outcome State Fault Refusal :=
  busRead size s.cfg.offIe s fun s => s.answer (.data s.ie)

/-- RD_IP (R76). -/
def execRdIp (size : Nat) (s : State) : Host.Outcome State Fault Refusal :=
  busRead size s.cfg.offIp s fun s => s.answer (.data (ip s))

/-- RD_DIV (R79). -/
def execRdDiv (size : Nat) (s : State) : Host.Outcome State Fault Refusal :=
  busRead size s.cfg.offDiv s fun s => s.answer (.data s.div)

/-- RD_UNMAPPED (R80): no value is returned. -/
def execRdUnmapped (off size : Nat) (s : State) : Host.Outcome State Fault Refusal :=
  busRead size off s (raiseFault .unmapped off .read none)

end Sys2Proof.Machine
end

