-- ==== Sys2Proof/Machine/RegisterWrite.lean ====
section
/-! DEFINITION. The register writes (41_register_write.md, R82 to R91). -/

namespace Sys2Proof.Machine

/-- WR_TXFIFO (R82). The backend's own blocking or failure is outside the model (R91), log 9. -/
def execWrTxfifo (size : Nat) (v : Word) (s : State) : Host.Outcome State Fault Refusal :=
  busWrite size s.cfg.offTxfifo v s fun s => s.emit (.txByte (lowByte v))

/-- WR_RXFIFO (R87): always the fault F_UNDEF_WRITE (D9). -/
def execWrRxfifo (size : Nat) (v : Word) (s : State) : Host.Outcome State Fault Refusal :=
  busWrite size s.cfg.offRxfifo v s (raiseFault .undefWrite s.cfg.offRxfifo .write (some v))

/-- WR_TXCTRL (R84). -/
def execWrTxctrl (size : Nat) (v : Word) (s : State) : Host.Outcome State Fault Refusal :=
  busWrite size s.cfg.offTxctrl v s fun s => s.setTxctrl v

/-- WR_RXCTRL (R85). -/
def execWrRxctrl (size : Nat) (v : Word) (s : State) : Host.Outcome State Fault Refusal :=
  busWrite size s.cfg.offRxctrl v s fun s => s.setRxctrl v

/-- WR_IE (R83): every bit is stored, then the line is recomputed. -/
def execWrIe (size : Nat) (v : Word) (s : State) : Host.Outcome State Fault Refusal :=
  busWrite size s.cfg.offIe v s fun s => recomputeIrq (s.setIe v)

/-- WR_IP (R88): always the fault F_UNDEF_WRITE (D9). -/
def execWrIp (size : Nat) (v : Word) (s : State) : Host.Outcome State Fault Refusal :=
  busWrite size s.cfg.offIp v s (raiseFault .undefWrite s.cfg.offIp .write (some v))

/-- WR_DIV (R86). -/
def execWrDiv (size : Nat) (v : Word) (s : State) : Host.Outcome State Fault Refusal :=
  busWrite size s.cfg.offDiv v s fun s => s.setDiv v

/-- WR_UNMAPPED (R89). -/
def execWrUnmapped (off size : Nat) (v : Word) (s : State) : Host.Outcome State Fault Refusal :=
  busWrite size off v s (raiseFault .unmapped off .write (some v))

end Sys2Proof.Machine
end

