-- ==== Sys2Proof/Machine/Dispatch.lean ====
section
/-! DEFINITION. The meaning of each operation: one arm per constructor of Instr. -/

namespace Sys2Proof.Machine

def exec (i : Instr) (s : State) : Host.Outcome State Fault Refusal :=
  match i with
  -- register reads
  | .rdTxfifo size => Sys2Proof.Machine.execRdTxfifo size s
  | .rdRxfifo size => Sys2Proof.Machine.execRdRxfifo size s
  | .rdTxctrl size => Sys2Proof.Machine.execRdTxctrl size s
  | .rdRxctrl size => Sys2Proof.Machine.execRdRxctrl size s
  | .rdIe size => Sys2Proof.Machine.execRdIe size s
  | .rdIp size => Sys2Proof.Machine.execRdIp size s
  | .rdDiv size => Sys2Proof.Machine.execRdDiv size s
  | .rdUnmapped off size => Sys2Proof.Machine.execRdUnmapped off size s
  -- register writes
  | .wrTxfifo size v => Sys2Proof.Machine.execWrTxfifo size v s
  | .wrRxfifo size v => Sys2Proof.Machine.execWrRxfifo size v s
  | .wrTxctrl size v => Sys2Proof.Machine.execWrTxctrl size v s
  | .wrRxctrl size v => Sys2Proof.Machine.execWrRxctrl size v s
  | .wrIe size v => Sys2Proof.Machine.execWrIe size v s
  | .wrIp size v => Sys2Proof.Machine.execWrIp size v s
  | .wrDiv size v => Sys2Proof.Machine.execWrDiv size v s
  | .wrUnmapped off size v => Sys2Proof.Machine.execWrUnmapped off size v s
  -- backend operations
  | .deliver b => Sys2Proof.Machine.execDeliver b s
  | .canAccept => Sys2Proof.Machine.execCanAccept s
  | .backendEvent ev => Sys2Proof.Machine.execBackendEvent ev s
  | .reconnect => Sys2Proof.Machine.execReconnect s

end Sys2Proof.Machine
end

