-- ==== Sys2Proof/Machine/Step.lean ====
section
/-! DEFINITION. One step: take the next request in the host's order, decode it, run it (R12, R52, R107). -/

namespace Sys2Proof.Machine

/-- One step of the block. The fault flag is checked first (R107); parameters that break the constraints are refused
(D27; log 5); with no request pending the block stays as it is. -/
def step (s : State) : Host.Outcome State Fault Refusal :=
  if s.faulted then .fault .deviceFaulted
  else if s.cfg.Valid then
    match takeRequest s with
    | none => idle s
    | some (r, s') =>
      match decode s.cfg r with
      | .instr i => exec i s'
      | .rejected why => .refused (refusalOf why)
  else .refused .badConfiguration

/-- The table's word `w` as the next request the block takes, before every request already pending. -/
def State.withFetchWord (s : State) (nbits w : Nat) : State := s.setRequests (tableRequest nbits w :: s.requests)

end Sys2Proof.Machine
end

