-- ==== Sys2Proof/Machine/Bus.lean ====
section
/-! DEFINITION. The host's side of the window: routing an address to an offset (R39 to R42), the text form of requests
(R69), and several instances side by side (R119). -/

namespace Sys2Proof.Machine

/-- The offset of an address inside the window, `addr - BASE`; an access outside is not routed to the block (R40 to
R42). -/
def route (c : Config) (addr : Nat) : Option Nat :=
  if c.base ≤ addr ∧ addr < c.base + c.windowSize then some (addr - c.base) else none

/-- A bus read at an address: its request, or none where no step of the block occurs (R42). -/
def busReadRequest (c : Config) (addr size : Nat) : Option Request := (route c addr).map fun off => encodeRead c off size

/-- A bus write at an address: its request, or none where no step of the block occurs (R42). -/
def busWriteRequest (c : Config) (addr size : Nat) (v : Word) : Option Request :=
  (route c addr).map fun off => encodeWrite c off size v

/-- A 4-byte bus write of four byte lanes, lowest address first (R46). -/
def busLaneWrite (c : Config) (addr : Nat) (b0 b1 b2 b3 : Byte) : Option Request :=
  busWriteRequest c addr 4 (laneWord c.laneOrder b0 b1 b2 b3)

/-- The offset a target of R69 stands for. -/
def targetOffset (c : Config) : Target → Nat
  | .reg r => c.off r
  | .raw off => off

/-- The request of a line of R69. A raw offset that the descriptor's `sel` cannot hold has none (R59). -/
def assemble (c : Config) : Line → Option Request
  | .rd size t =>
    if targetOffset c t < 2 ^ (6 + c.selExtra) then some (encodeRead c (targetOffset c t) size) else none
  | .wr size t v =>
    if targetOffset c t < 2 ^ (6 + c.selExtra) then some (encodeWrite c (targetOffset c t) size v) else none
  | .rx b => some (encode c (.deliver b))
  | .canrx => some (encode c .canAccept)
  | .event ev => some (encode c (.backendEvent ev))
  | .reconnect => some (encode c .reconnect)

/-- `<REG>` of R69. -/
def roleText : Role → String
  | .txfifo => "TXFIFO"
  | .rxfifo => "RXFIFO"
  | .txctrl => "TXCTRL"
  | .rxctrl => "RXCTRL"
  | .ie => "IE"
  | .ip => "IP"
  | .div => "DIV"

/-- `<REG>` or `@<off>` of R69, numbers in decimal. -/
def targetText : Target → String
  | .reg r => roleText r
  | .raw off => "@" ++ toString off

/-- `.<n>` of R69, left out for size 4. -/
def sizeText (size : Nat) : String := if size = 4 then "" else "." ++ toString size

def eventText : EventKind → String
  | .connect => "connect"
  | .disconnect => "disconnect"
  | .other tag => toString tag

/-- A line as R69 writes it, numbers in decimal. -/
def lineText : Line → String
  | .rd size t => "RD" ++ sizeText size ++ " " ++ targetText t
  | .wr size t v => "WR" ++ sizeText size ++ " " ++ targetText t ++ ", " ++ toString v.toNat
  | .rx b => "RX " ++ toString b.toNat
  | .canrx => "CANRX"
  | .event ev => "EVENT " ++ eventText ev
  | .reconnect => "RECONNECT"

/-- Several instances, each with its own device state, window, line and backend (R119): a step of instance `k`. -/
def systemStep (sys : List State) (k : Fin sys.length) : Host.Outcome (List State) Fault Refusal :=
  match step sys[k] with
  | .next t => .next (sys.set k t)
  | .fault r => .fault r
  | .refused r => .refused r

end Sys2Proof.Machine
end

