-- ==== Sys2Proof/Safety.lean ====
section
/-! DEFINITION. The terms statements use: the invariant of R32, reachable states, runs and what they accepted, returned,
sent and wrote, and what a bus access asks for. -/

namespace Sys2Proof.Machine

/-- The invariants I1 and I3 of R32, with the constraints on the parameters (R6, R7, R40). -/
abbrev Inv (s : State) : Prop := s.cfg.Valid ∧ s.rx.length ≤ s.cfg.capacity ∧ s.line = irq s

/-- The states an instance can be in: instantiated with any valid parameters, stepped, with requests arriving from
outside between any two steps, in any order (R53, R130). -/
inductive Reachable : State → Prop where
  | initial (c : Config) (valid : c.Valid) : Reachable (State.initial c)
  | stepped (s t : State) (from_ : Reachable s) (ran : step s = .next t) : Reachable t
  | arrive (s : State) (rs : List Request) (from_ : Reachable s) : Reachable (s.setRequests rs)

/-- A successful end of a run of `k` steps: never a faulted state (R106, D10). -/
def Succeeds (k : Nat) (s t : State) : Prop := Host.Core.run Sys2Proof.core k s = .next t ∧ t.faulted = false

/-- A list of operations run one after another, stopping at the first fault or refusal. -/
def execAll : List Instr → State → Host.Outcome State Fault Refusal
  | [], s => .next s
  | i :: is, s =>
    match exec i s with
    | .next t => execAll is t
    | .fault r => .fault r
    | .refused r => .refused r

/-- The next state of an outcome, seen through `f`; a stop is seen as it is. -/
def mapNext {α : Type} (f : State → α) : Host.Outcome State Fault Refusal → Host.Outcome α Fault Refusal
  | .next t => .next (f t)
  | .fault r => .fault r
  | .refused r => .refused r

/-- One completed step: the operation, the state before it and the state after it. -/
structure Transition where
  op : Instr
  before : State
  after : State

/-- The steps a state takes, up to `k` of them, that ran an operation and gave a next state. -/
def trace : Nat → State → List Transition
  | 0, _ => []
  | k + 1, s =>
    match takeRequest s, step s with
    | some (r, _), .next t =>
      match decode s.cfg r with
      | .instr i => { op := i, before := s, after := t } :: trace k t
      | .rejected _ => []
    | _, _ => []

/-- The state a run of those steps ends in. -/
def traceEnd (tr : List Transition) (s : State) : State := (tr.getLast?.map Transition.after).getD s

/-- The byte a step accepts from the backend: a delivery while there is room (R94). -/
def Transition.accepted (x : Transition) : Option Byte :=
  match x.op with
  | .deliver b => if x.before.rx.length < x.before.cfg.capacity then some b else none
  | _ => none

/-- The byte a step returns to the bus master: the low byte of an RXFIFO read's new answer with bit 31 clear (R30). -/
def Transition.returned (x : Transition) : Option Byte :=
  match x.op, x.after.answers.drop x.before.answers.length with
  | .rdRxfifo _, [.data v] => if v.getLsbD 31 then none else some (v.setWidth 8)
  | _, _ => none

/-- The byte a step is asked to send: a 4-byte TXFIFO write's low 8 bits (R82). -/
def Transition.toSend (x : Transition) : Option Byte :=
  match x.op with
  | .wrTxfifo 4 v => some (v.setWidth 8)
  | _ => none

/-- The bytes handed to the backend, from the event log (R27). -/
def sentBytes (log : List Event) : List Byte :=
  log.filterMap fun e =>
    match e with
    | .txByte b => some b
    | _ => none

/-- The value a completed step writes to a register that stores its value: a 4-byte write to it (R83 to R86). -/
def Transition.writes (r : Role) (x : Transition) : Option Word :=
  match r, x.op with
  | .ie, .wrIe 4 v => some v
  | .txctrl, .wrTxctrl 4 v => some v
  | .rxctrl, .wrRxctrl 4 v => some v
  | .div, .wrDiv 4 v => some v
  | _, _ => none

/-- The stored value of the four registers that store one (R29); none for the other three roles. -/
def stored (s : State) : Role → Option Word
  | .ie => some s.ie
  | .txctrl => some s.txctrl
  | .rxctrl => some s.rxctrl
  | .div => some s.div
  | .txfifo | .rxfifo | .ip => none

/-- What a bus access asks for: its size, offset, direction and written value (R41). -/
structure BusAccess where
  size : Nat
  off : Nat
  dir : Direction
  value : Option Word
deriving DecidableEq, Repr

/-- The bus access of an operation; none for a backend operation. -/
def busAccessOf (c : Config) : Instr → Option BusAccess
  | .rdTxfifo n => some ⟨n, c.offTxfifo, .read, none⟩
  | .rdRxfifo n => some ⟨n, c.offRxfifo, .read, none⟩
  | .rdTxctrl n => some ⟨n, c.offTxctrl, .read, none⟩
  | .rdRxctrl n => some ⟨n, c.offRxctrl, .read, none⟩
  | .rdIe n => some ⟨n, c.offIe, .read, none⟩
  | .rdIp n => some ⟨n, c.offIp, .read, none⟩
  | .rdDiv n => some ⟨n, c.offDiv, .read, none⟩
  | .rdUnmapped off n => some ⟨n, off, .read, none⟩
  | .wrTxfifo n v => some ⟨n, c.offTxfifo, .write, some v⟩
  | .wrRxfifo n v => some ⟨n, c.offRxfifo, .write, some v⟩
  | .wrTxctrl n v => some ⟨n, c.offTxctrl, .write, some v⟩
  | .wrRxctrl n v => some ⟨n, c.offRxctrl, .write, some v⟩
  | .wrIe n v => some ⟨n, c.offIe, .write, some v⟩
  | .wrIp n v => some ⟨n, c.offIp, .write, some v⟩
  | .wrDiv n v => some ⟨n, c.offDiv, .write, some v⟩
  | .wrUnmapped off n v => some ⟨n, off, .write, some v⟩
  | .deliver _ | .canAccept | .backendEvent _ | .reconnect => none

/-- The descriptor `kind || sel` with `extra` bits of `sel` beyond its six (R59). -/
def Descriptor.ofFields (extra : Nat) (kind : BitVec 2) (sel : Nat) : Descriptor :=
  { extra := extra, bits := kind ++ BitVec.ofNat (6 + extra) sel }

/-- The descriptor of a bus read, `0b00 || off` (R60), in the width of this configuration's format (log 5
where `W > 64`). -/
def readDescriptor (c : Config) (off : Nat) : Descriptor := Descriptor.ofFields c.selExtra 0b00 off

/-- The descriptor of a bus write, `0b01 || off` (R61), in the width of this configuration's format (log 5
where `W > 64`). -/
def writeDescriptor (c : Config) (off : Nat) : Descriptor := Descriptor.ofFields c.selExtra 0b01 off

/-- A Drive event (R27). -/
def Event.isDrive : Event → Bool
  | .drive _ => true
  | .txByte _ | .slotFreed | .dropWarning _ | .diagnostic _ _ _ _ => false

end Sys2Proof.Machine
end

