-- ==== Sys2Proof/Certificates/Slice0/Obligations.lean ====
section
/-! DEFINITION. The statements about the model, one `def Obligations.<Name> : Prop` each. In every one the parameters
are those of the state, so it holds for every value of C, BASE, W, the offsets and the bit positions. A next state is
written out as an update of the state before it: every field not named there is unchanged. -/

open Sys2Proof Sys2Proof.Machine

/-! ## Reset -/

/-- The instance after reset (R36): the spec's own decision D11, log 3; `requests` and `answers` are the model's own
fields, log 2 and log 6. -/
def Obligations.ResetStateValues : Prop :=
  State.reset.rx = [] ∧ State.reset.ie = 0 ∧ State.reset.txctrl = 0 ∧ State.reset.rxctrl = 0 ∧ State.reset.div = 0 ∧
  State.reset.faulted = false ∧ State.reset.log = [] ∧ State.reset.requests = [] ∧ State.reset.answers = [] ∧
  State.reset.line = false ∧ irq State.reset = false ∧ State.reset.cfg.Valid

/-! ## Register reads -/

/-- R74: a TXFIFO read returns 0 always, and is the access with descriptor `0b00 || OFF_TXFIFO`. -/
def Obligations.TxfifoReadReturnsZero : Prop :=
  (∀ s : State, s.faulted = false →
    exec (.rdTxfifo 4) s = .next { s with answers := s.answers ++ [.data 0x0000_0000#32] }) ∧
  ∀ (c : Config) (ops : Operands), c.Valid →
    decode c (.transaction (readDescriptor c c.offTxfifo) ops) = .instr (.rdTxfifo ops.size)

/-- R75, R77, R78, R79: IE, TXCTRL, RXCTRL and DIV read back whole, with no effect. -/
def Obligations.StoredRegisterReads : Prop :=
  (∀ s : State, s.faulted = false →
    exec (.rdIe 4) s = .next { s with answers := s.answers ++ [.data s.ie] } ∧
    exec (.rdTxctrl 4) s = .next { s with answers := s.answers ++ [.data s.txctrl] } ∧
    exec (.rdRxctrl 4) s = .next { s with answers := s.answers ++ [.data s.rxctrl] } ∧
    exec (.rdDiv 4) s = .next { s with answers := s.answers ++ [.data s.div] }) ∧
  ∀ (c : Config) (ops : Operands), c.Valid →
    decode c (.transaction (readDescriptor c c.offIe) ops) = .instr (.rdIe ops.size) ∧
    decode c (.transaction (readDescriptor c c.offTxctrl) ops) = .instr (.rdTxctrl ops.size) ∧
    decode c (.transaction (readDescriptor c c.offRxctrl) ops) = .instr (.rdRxctrl ops.size) ∧
    decode c (.transaction (readDescriptor c c.offDiv) ops) = .instr (.rdDiv ops.size)

/-- R76: an IP read returns the pending bit if and only if the buffer is non-empty, every other bit 0, whatever IE
holds, and never pops. -/
def Obligations.IpReadReturnsPending : Prop :=
  (∀ s : State, s.faulted = false →
    exec (.rdIp 4) s =
      .next { s with
        answers := s.answers ++ [.data (if s.rx.length > 0 then 1#32 <<< s.cfg.ipRxwmPos.val else 0)] }) ∧
  ∀ (c : Config) (ops : Operands), c.Valid →
    decode c (.transaction (readDescriptor c c.offIp) ops) = .instr (.rdIp ops.size)

/-- R73: an RXFIFO read of a non-empty buffer pops the front byte, returns it zero-extended, signals the free slot and
then recomputes the line; of an empty buffer it returns the sentinel and does nothing else. -/
def Obligations.RxfifoReadPopsFront : Prop :=
  (∀ (s : State) (b : Byte) (rest : List Byte), s.faulted = false → s.rx = b :: rest →
    exec (.rdRxfifo 4) s =
      .next { s with
        rx := rest
        log := s.log ++ [.slotFreed,
          .drive (decide (s.ie &&& (1#32 <<< s.cfg.rxwmPos.val) ≠ 0 ∧ rest ≠ []))]
        answers := s.answers ++ [.data (b.setWidth 32)] }) ∧
  (∀ s : State, s.faulted = false → s.rx = [] →
    exec (.rdRxfifo 4) s = .next { s with answers := s.answers ++ [.data 0x8000_0000#32] }) ∧
  ∀ (c : Config) (ops : Operands), c.Valid →
    decode c (.transaction (readDescriptor c c.offRxfifo) ops) = .instr (.rdRxfifo ops.size)

/-- R30: the layout of the value an RXFIFO read returns, bit by bit: bits 7:0 the front byte or 0, bits 30:8 zero, bit
31 the empty flag. -/
def Obligations.RxfifoValueLayout : Prop :=
  ∀ s t : State, exec (.rdRxfifo 4) s = .next t →
    ∃ v : Word, t.answers = s.answers ++ [.data v] ∧
      (∀ k, k < 8 → v.getLsbD k = (s.rx.head?.getD 0).getLsbD k) ∧
      (∀ k, 8 ≤ k → k < 31 → v.getLsbD k = false) ∧
      v.getLsbD 31 = s.rx.isEmpty

/-! ## Register writes -/

/-- R82: a TXFIFO write sends the low 8 bits of its value, one byte, and changes no state. -/
def Obligations.TxfifoWriteSendsLowByte : Prop :=
  (∀ (s : State) (v : Word), s.faulted = false →
    exec (.wrTxfifo 4 v) s = .next { s with log := s.log ++ [.txByte (v.extractLsb' 0 8)] }) ∧
  ∀ (c : Config) (ops : Operands), c.Valid →
    decode c (.transaction (writeDescriptor c c.offTxfifo) ops) = .instr (.wrTxfifo ops.size ops.v)

/-- R83: an IE write stores every bit and drives the line to the condition of the stored value. -/
def Obligations.IeWriteStoresAndDrives : Prop :=
  (∀ (s : State) (v : Word), s.faulted = false →
    exec (.wrIe 4 v) s =
      .next { s with
        ie := v
        log := s.log ++ [.drive (decide (v &&& (1#32 <<< s.cfg.rxwmPos.val) ≠ 0 ∧ s.rx ≠ []))] }) ∧
  ∀ (c : Config) (ops : Operands), c.Valid →
    decode c (.transaction (writeDescriptor c c.offIe) ops) = .instr (.wrIe ops.size ops.v)

/-- R84, R85, R86: TXCTRL, RXCTRL and DIV store the written value verbatim, with no event. -/
def Obligations.ControlWritesStoreVerbatim : Prop :=
  (∀ (s : State) (v : Word), s.faulted = false →
    exec (.wrTxctrl 4 v) s = .next { s with txctrl := v } ∧
    exec (.wrRxctrl 4 v) s = .next { s with rxctrl := v } ∧
    exec (.wrDiv 4 v) s = .next { s with div := v }) ∧
  ∀ (c : Config) (ops : Operands), c.Valid →
    decode c (.transaction (writeDescriptor c c.offTxctrl) ops) = .instr (.wrTxctrl ops.size ops.v) ∧
    decode c (.transaction (writeDescriptor c c.offRxctrl) ops) = .instr (.wrRxctrl ops.size ops.v) ∧
    decode c (.transaction (writeDescriptor c c.offDiv) ops) = .instr (.wrDiv ops.size ops.v)

/-- A write to RXFIFO or IP takes the fault F_UNDEF_WRITE: the flag, the diagnostic, and nothing else. That these
writes fault is the spec's own decision D9, and that the fault is a next state is log 12. -/
def Obligations.UndefinedWritesFault : Prop :=
  (∀ (s : State) (v : Word), s.faulted = false →
    exec (.wrRxfifo 4 v) s =
      .next { s with
        faulted := true, log := s.log ++ [.diagnostic .undefWrite s.cfg.offRxfifo .write (some v)] } ∧
    exec (.wrIp 4 v) s =
      .next { s with
        faulted := true, log := s.log ++ [.diagnostic .undefWrite s.cfg.offIp .write (some v)] }) ∧
  ∀ (c : Config) (ops : Operands), c.Valid →
    decode c (.transaction (writeDescriptor c c.offRxfifo) ops) = .instr (.wrRxfifo ops.size ops.v) ∧
    decode c (.transaction (writeDescriptor c c.offIp) ops) = .instr (.wrIp ops.size ops.v)

/-! ## Faults -/

/-- R80, R89, R104: every 4-byte access at a window offset that is no register's takes the fault F_UNMAPPED: the flag,
the diagnostic with offset, direction and (for a write) value, and nothing else. Every misaligned offset is such an
offset. That the fault is a next state is log 12. -/
def Obligations.UnmappedAccessFaults : Prop :=
  (∀ (s : State) (off : Nat) (v : Word), s.faulted = false →
    exec (.rdUnmapped off 4) s =
      .next { s with faulted := true, log := s.log ++ [.diagnostic .unmapped off .read none] } ∧
    exec (.wrUnmapped off 4 v) s =
      .next { s with faulted := true, log := s.log ++ [.diagnostic .unmapped off .write (some v)] }) ∧
  (∀ (c : Config) (off : Nat) (ops : Operands), c.Valid → off < c.windowSize → (∀ r, off ≠ c.off r) →
    decode c (.transaction (readDescriptor c off) ops) = .instr (.rdUnmapped off ops.size) ∧
    decode c (.transaction (writeDescriptor c off) ops) = .instr (.wrUnmapped off ops.size ops.v)) ∧
  ∀ (c : Config) (off : Nat), c.Valid → off % 4 ≠ 0 → ∀ r, off ≠ c.off r

/-- A bus access of a size other than 4, at any offset, takes the fault F_WIDTH, before every other check but the
fault flag. The fault is the spec's own decision D7 and the order its decision D25. -/
def Obligations.WrongSizeFaults : Prop :=
  ∀ (s : State) (i : Instr) (a : BusAccess), s.faulted = false → busAccessOf s.cfg i = some a → a.size ≠ 4 →
    exec i s =
      .next { s with faulted := true, log := s.log ++ [.diagnostic .width a.off a.dir a.value] }

/-- R50: a step that faults writes no device state, moves no line and answers nothing; it logs exactly one
diagnostic. -/
def Obligations.FaultingStepWritesNoState : Prop :=
  ∀ (i : Instr) (s t : State), exec i s = .next t → t.faulted = true →
    ∃ k off dir value,
      t = { s with faulted := true, log := s.log ++ [.diagnostic k off dir value] } ∧ t.line = s.line ∧ irq t = irq s

/-- A faulted state is terminal: neither `step` nor any operation goes on. The spec's own decision D10. -/
def Obligations.FaultedTakesNoStep : Prop :=
  ∀ s : State, s.faulted = true → step s = .fault .deviceFaulted ∧ ∀ i, exec i s = .fault .deviceFaulted

/-- A faulted state is never the successful end of a run, and no run from one succeeds (R106; the spec's own decision
D10). -/
def Obligations.NoSuccessAfterFault : Prop := ∀ (k : Nat) (s t : State), s.faulted = true → ¬ Succeeds k s t

/-- The only operations that can set the fault flag are bus accesses of a wrong size, unmapped accesses and writes to
RXFIFO or IP: an overrun and an empty read never do. -/
def Obligations.OnlyProtocolViolationsFault : Prop :=
  ∀ (i : Instr) (s : State), s.faulted = false →
    ∃ t, exec i s = .next t ∧
      (t.faulted = true ↔
        (∃ a, busAccessOf s.cfg i = some a ∧ a.size ≠ 4) ∨ (∃ off n, i = .rdUnmapped off n) ∨
        (∃ off n v, i = .wrUnmapped off n v) ∨ (∃ n v, i = .wrRxfifo n v) ∨ (∃ n v, i = .wrIp n v))

/-! ## The receive path -/

/-- R92: `can_accept` answers whether the buffer has room, and changes nothing. For a window that the 6-bit `sel` holds
(R59) it is the request 0xC0 (R63); wider windows are in BackendWordsAtEveryWidth. -/
def Obligations.CanAcceptReportsRoom : Prop :=
  (∀ s : State, s.faulted = false →
    exec .canAccept s = .next { s with answers := s.answers ++ [.accept (decide (s.rx.length < s.cfg.capacity))] }) ∧
  (∀ s : State, s.rx.length ≤ s.cfg.capacity →
    (decide (s.rx.length < s.cfg.capacity) = false ↔ s.rx.length = s.cfg.capacity)) ∧
  (∀ s : State, s.cfg.Valid → s.rx = [] → decide (s.rx.length < s.cfg.capacity) = true) ∧
  ∀ (c : Config) (ops : Operands), c.windowSize ≤ 64 →
    decode c (.transaction (.ofByte 0xC0#8) ops) = .instr .canAccept

/-- R94: a delivery with room appends the byte at the tail and drives the line to the condition of the new buffer;
without room it drops the byte with one warning and no drive. For a window that the 6-bit `sel` holds (R59) it is the
request 0x80 (R62); wider windows are in BackendWordsAtEveryWidth. -/
def Obligations.DeliverAppendsOrDrops : Prop :=
  (∀ (s : State) (b : Byte), s.faulted = false → s.rx.length < s.cfg.capacity →
    exec (.deliver b) s =
      .next { s with
        rx := s.rx ++ [b]
        log := s.log ++ [.drive (decide (s.ie &&& (1#32 <<< s.cfg.rxwmPos.val) ≠ 0))] }) ∧
  (∀ (s : State) (b : Byte), s.faulted = false → ¬ s.rx.length < s.cfg.capacity →
    exec (.deliver b) s = .next { s with log := s.log ++ [.dropWarning b] }) ∧
  ∀ (c : Config) (ops : Operands), c.windowSize ≤ 64 →
    decode c (.transaction (.ofByte 0x80#8) ops) = .instr (.deliver ops.b)

/-- R95: an overrun discards the byte and leaves the buffer, the registers and the line as they were; it warns, answers
no one, and no later operation can tell that it happened (there is no overrun flag). -/
def Obligations.OverrunLeavesNoTrace : Prop :=
  ∀ (s t : State) (b : Byte), s.rx.length = s.cfg.capacity → exec (.deliver b) s = .next t →
    t = { s with log := s.log ++ [.dropWarning b] } ∧ t.line = s.line ∧
    ∀ i, mapNext (fun u => { u with log := [] }) (exec i t) = mapNext (fun u => { u with log := [] }) (exec i s)

/-- A lifecycle event has no effect, whatever its kind (D20), and a reconnect returns success and changes nothing else
(D21). For a window that the 6-bit `sel` holds (R59) they are the requests 0xC1 and 0xC2 (R63; the spec's own decision
D12); wider windows are in BackendWordsAtEveryWidth. -/
def Obligations.LifecycleChangesNothing : Prop :=
  (∀ (s : State) (ev : EventKind), s.faulted = false →
    exec (.backendEvent ev) s = .next s ∧
    exec .reconnect s = .next { s with answers := s.answers ++ [.success] }) ∧
  ∀ (c : Config) (ops : Operands), c.windowSize ≤ 64 →
    decode c (.transaction (.ofByte 0xC1#8) ops) = .instr (.backendEvent ops.ev) ∧
    decode c (.transaction (.ofByte 0xC2#8) ops) = .instr .reconnect

/-- The contract of R93: a delivery right after `can_accept` answered true is never dropped, and a read of a full
buffer opens the gate again. -/
def Obligations.GateNeverDrops : Prop :=
  (∀ (s t u : State) (b : Byte), exec .canAccept s = .next t → t.answers = s.answers ++ [.accept true] →
    exec (.deliver b) t = .next u → u.rx = s.rx ++ [b] ∧ .dropWarning b ∉ u.log.drop t.log.length) ∧
  ∀ s t u : State, s.cfg.Valid → s.rx.length = s.cfg.capacity → exec (.rdRxfifo 4) s = .next t →
    exec .canAccept t = .next u → u.answers = t.answers ++ [.accept true]

/-- R18: only an accepted delivery appends to the buffer, only a non-empty RXFIFO read removes its front byte, and no
other step changes it. -/
def Obligations.BufferChangesOnlyAtItsEnds : Prop :=
  ∀ (i : Instr) (s t : State), exec i s = .next t →
    t.rx = s.rx ∨ (∃ b, i = .deliver b ∧ t.rx = s.rx ++ [b]) ∨ (i = .rdRxfifo 4 ∧ ∃ b, s.rx = b :: t.rx)

/-- R98: the buffer state machine, with the transitions of `C = 1`. -/
def Obligations.BufferStateTransitions : Prop :=
  (∀ (s t : State) (b : Byte), s.cfg.Valid → exec (.deliver b) s = .next t →
    (bufferState s = .empty →
      bufferState t = if s.cfg.capacity = 1 then BufferState.full else BufferState.partly) ∧
    (bufferState s = .partly →
      bufferState t = if s.rx.length + 1 = s.cfg.capacity then BufferState.full else BufferState.partly) ∧
    (bufferState s = .full → t = { s with log := s.log ++ [.dropWarning b] })) ∧
  (∀ s t : State, s.cfg.Valid → s.rx.length ≤ s.cfg.capacity → exec (.rdRxfifo 4) s = .next t →
    (bufferState s = .empty → t = { s with answers := s.answers ++ [.data 0x8000_0000#32] }) ∧
    (bufferState s = .partly → bufferState t = if s.rx.length = 1 then BufferState.empty else BufferState.partly) ∧
    (bufferState s = .full → bufferState t = if s.cfg.capacity = 1 then BufferState.empty else BufferState.partly)) ∧
  ∀ (i : Instr) (s t : State), exec i s = .next t → (∀ b, i ≠ .deliver b) → (∀ n, i ≠ .rdRxfifo n) →
    bufferState t = bufferState s

/-- Deliveries without reads: the first bytes fill the buffer up to its capacity, in order, and every later one is
dropped with a warning that names it; the registers and the parameters are untouched. -/
def Obligations.DeliveriesFillThenDrop : Prop :=
  ∀ (bs : List Byte) (s : State), s.faulted = false → s.rx.length ≤ s.cfg.capacity →
    ∃ t, execAll (bs.map .deliver) s = .next t ∧
      t.rx = s.rx ++ bs.take (s.cfg.capacity - s.rx.length) ∧
      (t.log.drop s.log.length).filter (fun e => !e.isDrive) =
        (bs.drop (s.cfg.capacity - s.rx.length)).map .dropWarning ∧
      t.log.take s.log.length = s.log ∧
      t = { s with rx := t.rx, log := t.log }

/-- Draining: as many RXFIFO reads as there are bytes answer exactly the buffer's bytes in order, leave it empty, and
leave the line deasserted. -/
def Obligations.DrainReturnsAllAndDeasserts : Prop :=
  ∀ s : State, s.faulted = false → s.line = irq s →
    ∃ t, execAll (List.replicate s.rx.length (.rdRxfifo 4)) s = .next t ∧ t.rx = [] ∧ t.line = false ∧
      t.answers = s.answers ++ s.rx.map (fun b => .data (b.setWidth 32)) ∧
      t = { s with rx := [], log := t.log, answers := t.answers }

/-- After an IP read with the pending bit set, and any operations of either agent but RXFIFO reads, the next RXFIFO
read returns a byte and not the sentinel (R130). -/
def Obligations.PendingThenReadReturnsData : Prop :=
  ∀ (s s' t u : State) (v : Word) (is : List Instr),
    exec (.rdIp 4) s = .next s' → s'.answers = s.answers ++ [.data v] → v.getLsbD s.cfg.ipRxwmPos.val = true →
    (∀ n, .rdRxfifo n ∉ is) → execAll is s' = .next t → exec (.rdRxfifo 4) t = .next u →
    ∃ w : Word, u.answers = t.answers ++ [.data w] ∧ w.getLsbD 31 = false

/-! ## The interrupt line -/

/-- R108, R24: the recomputation drives the line to exactly (RXWM enabled) and (buffer non-empty), and changes nothing
else. -/
def Obligations.RecomputeDrivesCondition : Prop :=
  ∀ s : State,
    recomputeIrq s =
      { s with log := s.log ++ [.drive (decide (s.ie.getLsbD s.cfg.rxwmPos.val = true ∧ s.rx ≠ []))] } ∧
    irq s = decide (s.ie.getLsbD s.cfg.rxwmPos.val = true ∧ s.rx ≠ [])

/-- R110: a second recomputation with unchanged inputs drives the same level, and a drive of the level the line has is
no transition. -/
def Obligations.RecomputeIsIdempotent : Prop :=
  ∀ s : State, (recomputeIrq (recomputeIrq s)).line = (recomputeIrq s).line ∧
    (recomputeIrq (recomputeIrq s)).log.getLast? = (recomputeIrq s).log.getLast? ∧
    (s.line = irq s → (recomputeIrq s).line = s.line)

/-- The line is driven at exactly three points, each time as the last action of its step and to the condition of the
state after it; every other step leaves IE, the buffer and the line alone (R109, whose level property is the spec's
decision D28). -/
def Obligations.LineDrivenAtThreePoints : Prop :=
  ∀ (i : Instr) (s t : State), exec i s = .next t →
    ∃ evs, t.log = s.log ++ evs ∧
      (((∃ v, i = .wrIe 4 v) ∨ (i = .rdRxfifo 4 ∧ s.rx ≠ []) ∨
          (∃ b, i = .deliver b ∧ s.rx.length < s.cfg.capacity)) ∧
        (∃ before, evs = before ++ [.drive (irq t)] ∧ ∀ e ∈ before, e.isDrive = false)
      ∨ ¬ ((∃ v, i = .wrIe 4 v) ∨ (i = .rdRxfifo 4 ∧ s.rx ≠ []) ∨
          (∃ b, i = .deliver b ∧ s.rx.length < s.cfg.capacity)) ∧
        (∀ e ∈ evs, e.isDrive = false) ∧ t.ie = s.ie ∧ t.rx = s.rx ∧ t.line = s.line)

/-- R111: an asserted line falls only when a read empties the buffer or an IE write clears RXWM, a deasserted line
rises only on a delivery or an IE write that sets RXWM, and the block never looks at the line: whatever the log holds,
it does the same. -/
def Obligations.LineMovesOnlyByItsCauses : Prop :=
  (∀ (i : Instr) (s t : State), s.line = irq s → exec i s = .next t → s.line = true → t.line = false →
    (i = .rdRxfifo 4 ∧ t.rx = []) ∨ ∃ v, i = .wrIe 4 v ∧ v.getLsbD s.cfg.rxwmPos.val = false) ∧
  (∀ (i : Instr) (s t : State), s.line = irq s → exec i s = .next t → s.line = false → t.line = true →
    (∃ b, i = .deliver b ∧ s.rx = []) ∨ ∃ v, i = .wrIe 4 v ∧ v.getLsbD s.cfg.rxwmPos.val = true) ∧
  ∀ (i : Instr) (s : State) (l : List Event),
    mapNext (fun t => (t.log.drop l.length, { t with log := [] })) (exec i { s with log := l }) =
      mapNext (fun t => (t.log.drop s.log.length, { t with log := [] })) (exec i s)

/-- Every IE bit other than RXWM is inert (R20, R112): two states whose IE agree at RXWM run every operation but an IE
read to the same events, answers and state, IE itself apart. -/
def Obligations.OnlyRxwmBitMatters : Prop :=
  ∀ (i : Instr) (s : State) (v : Word),
    v.getLsbD s.cfg.rxwmPos.val = s.ie.getLsbD s.cfg.rxwmPos.val → (∀ n, i ≠ .rdIe n) →
    mapNext (fun t => { t with ie := 0 }) (exec i { s with ie := v }) =
      mapNext (fun t => { t with ie := 0 }) (exec i s)

/-! ## The stored registers -/

/-- R21, R22, R23: TXCTRL, RXCTRL and DIV read back all 32 bits as written, and no step reads any part of them: what
they hold changes no operation but their own read. -/
def Obligations.OpaqueRegistersHaveNoEffect : Prop :=
  (∀ (s : State) (v : Word), s.faulted = false →
    execAll [.wrTxctrl 4 v, .rdTxctrl 4] s = .next { s with txctrl := v, answers := s.answers ++ [.data v] } ∧
    execAll [.wrRxctrl 4 v, .rdRxctrl 4] s = .next { s with rxctrl := v, answers := s.answers ++ [.data v] } ∧
    execAll [.wrDiv 4 v, .rdDiv 4] s = .next { s with div := v, answers := s.answers ++ [.data v] }) ∧
  (∀ (i : Instr) (s : State) (v : Word), (∀ n, i ≠ .rdTxctrl n) →
    mapNext (fun t => { t with txctrl := 0 }) (exec i { s with txctrl := v }) =
      mapNext (fun t => { t with txctrl := 0 }) (exec i s)) ∧
  (∀ (i : Instr) (s : State) (v : Word), (∀ n, i ≠ .rdRxctrl n) →
    mapNext (fun t => { t with rxctrl := 0 }) (exec i { s with rxctrl := v }) =
      mapNext (fun t => { t with rxctrl := 0 }) (exec i s)) ∧
  ∀ (i : Instr) (s : State) (v : Word), (∀ n, i ≠ .rdDiv n) →
    mapNext (fun t => { t with div := 0 }) (exec i { s with div := v }) =
      mapNext (fun t => { t with div := 0 }) (exec i s)

/-- I4 of R32: after any run, each of IE, TXCTRL, RXCTRL and DIV holds the value of the last write to it, or what it
held before if there was none. -/
def Obligations.RegistersHoldLastWrite : Prop :=
  ∀ (k : Nat) (s : State) (r : Role),
    stored (traceEnd (trace k s) s) r =
      (stored s r).map fun v => ((trace k s).filterMap (Transition.writes r)).getLast?.getD v

/-! ## Whole-machine statements -/

/-- The step keeps the invariants of R32 (I1: the length is at most C; I3: the line's level is `irq(S)`) and the
constraints on the parameters, from EVERY state that meets them; I3 also across a faulting step. -/
def Obligations.StepKeepsInvariant : Prop := ∀ s t : State, Inv s → step s = .next t → Inv t

/-- The state at instantiation meets the invariant, for every valid parameters; the state after reset is one of
them. -/
def Obligations.InitialStateMeetsInvariant : Prop :=
  (∀ c : Config, c.Valid → Inv (State.initial c)) ∧ Inv State.reset

/-- Every state an instance can reach meets the invariant, whatever requests arrive between its steps and in whatever
order: the line is asserted exactly while RXWM is enabled and the buffer is non-empty. Reachable states start from the
values of `State.initial`, the spec's own decision D11, log 3. -/
def Obligations.ReachableLineAndBound : Prop :=
  ∀ s : State, Reachable s →
    s.rx.length ≤ s.cfg.capacity ∧ (s.line = true ↔ s.ie.getLsbD s.cfg.rxwmPos.val = true ∧ s.rx ≠ [])

/-- R54: FIFO order under every interleaving. Over any run of steps, over any order of requests of the two agents, the
bytes RXFIFO reads returned, followed by the bytes still in the buffer, are the bytes that were in the buffer followed by
the accepted deliveries, in arrival order. -/
def Obligations.FifoOrderPreserved : Prop :=
  ∀ (k : Nat) (s : State),
    s.rx ++ (trace k s).filterMap Transition.accepted =
      (trace k s).filterMap Transition.returned ++ (traceEnd (trace k s) s).rx

/-- The bytes handed to the backend over any run are the low bytes of the TXFIFO writes, all of them, once each and in
order: there is no transmit buffering (R82, R133). -/
def Obligations.SentBytesAreTheWrites : Prop :=
  ∀ (k : Nat) (s : State),
    sentBytes (traceEnd (trace k s) s).log = sentBytes s.log ++ (trace k s).filterMap Transition.toSend

/-- No operation changes the parameters or the pending requests, or anything already logged or answered: what an
operation emits is appended (R28, R27). An operation sets the fault flag exactly when all it logs is one diagnostic
(R102): no operation but a fault sets it. `cfg`, `requests` and `answers` are the model's own fields, log 1, log 2 and
log 6. -/
def Obligations.OutputsOnlyGrow : Prop :=
  ∀ (i : Instr) (s t : State), exec i s = .next t →
    t.cfg = s.cfg ∧ t.requests = s.requests ∧ s.log <+: t.log ∧ s.answers <+: t.answers ∧
    t.answers.length ≤ s.answers.length + 1 ∧ t.log.length ≤ s.log.length + 2 ∧
    (t.faulted = true ↔ ∃ k off dir value, t.log = s.log ++ [.diagnostic k off dir value])

/-- A step runs the decoded operation on the state with that request taken (R12, R52). -/
def Obligations.StepRunsDecodedRequest : Prop :=
  ∀ (s : State) (r : Request) (rest : List Request) (i : Instr),
    s.cfg.Valid → s.requests = r :: rest → decode s.cfg r = .instr i →
    step s = exec i { s with requests := rest }

/-- A live state with valid parameters can always step, unless its next request names no operation: with a request
that decodes it takes it and goes on, with none it stays as it is (log 11). Nothing blocks or suspends (R12, R121). -/
def Obligations.LiveStateAlwaysSteps : Prop :=
  ∀ s : State, s.faulted = false → s.cfg.Valid →
    (s.requests = [] → step s = .next s) ∧
    ∀ r rest, s.requests = r :: rest →
      (∃ i, decode s.cfg r = .instr i) ∧ (∃ t, step s = .next t ∧ t.requests = rest) ∨
      (∃ why, decode s.cfg r = .rejected why ∧ step s = .refused (refusalOf why))

/-- What a live instance's `step` refuses, and under which name. A configuration that breaks a constraint of R6, R7 or
R40: `C = 0` by D27, the others by log 5. An instruction fetch from the window (D16). A bus descriptor, read or write,
with `off >= W` (D30), whatever the width of `sel` (log 5). A backend descriptor that names no operation: `kind = 0b10` with
`sel != 0` and `kind = 0b11` with `sel >= 3` (D30). A refusal gives no next state. -/
def Obligations.RefusalsByName : Prop :=
  (∀ s : State, s.faulted = false → (¬ s.cfg.Valid → step s = .refused .badConfiguration) ∧
    (s.cfg.capacity = 0 → ¬ s.cfg.Valid)) ∧
  ∀ (s : State) (r : Request) (rest : List Request), s.faulted = false → s.cfg.Valid → s.requests = r :: rest →
    (∀ off, r = .instructionFetch off → step s = .refused (.instructionFetch off)) ∧
    ∀ (extra sel : Nat) (ops : Operands), sel < 2 ^ (6 + extra) →
      (s.cfg.windowSize ≤ sel →
        (r = .transaction (Descriptor.ofFields extra 0b00 sel) ops → step s = .refused (.outsideWindow sel)) ∧
        (r = .transaction (Descriptor.ofFields extra 0b01 sel) ops → step s = .refused (.outsideWindow sel))) ∧
      (sel ≠ 0 → r = .transaction (Descriptor.ofFields extra 0b10 sel) ops →
        step s = .refused (.undefinedDescriptor (Descriptor.ofFields extra 0b10 sel))) ∧
      (3 ≤ sel → r = .transaction (Descriptor.ofFields extra 0b11 sel) ops →
        step s = .refused (.undefinedDescriptor (Descriptor.ofFields extra 0b11 sel)))

/-- Instances share no state (R119): a step of one leaves every other as it was. -/
def Obligations.InstancesAreIndependent : Prop :=
  ∀ (sys sys' : List State) (k : Fin sys.length), systemStep sys k = .next sys' →
    sys'.length = sys.length ∧ (∀ j : Nat, j ≠ k.val → sys'[j]? = sys[j]?) ∧
    ∃ t, step sys[k] = .next t ∧ sys'[k.val]? = some t

/-! ## Encoding -/

/-- Words of the opcode map (R70) decode to the operations the table gives, at the default parameters. The descriptor
format and the offsets are the spec's own decisions D12 and D2. -/
def Obligations.OpcodeMapWords : Prop :=
  decodeTableWord 8 0b00000000 = some (.rdTxfifo 4) ∧ decodeTableWord 8 0b00000100 = some (.rdRxfifo 4) ∧
  decodeTableWord 8 0b00010100 = some (.rdIp 4) ∧ decodeTableWord 8 0b00011100 = some (.rdUnmapped 0x1C 4) ∧
  decodeTableWord 8 0b01010000 = some (.wrIe 4 0) ∧ decodeTableWord 8 0b01010010 = some (.wrUnmapped 0x12 4 0) ∧
  decodeTableWord 8 0b10000000 = some (.deliver 0) ∧ decodeTableWord 8 0b11000001 = some (.backendEvent .connect) ∧
  decodeTableWord 8 0b11000010 = some .reconnect ∧ decodeTableWord 8 0b11000011 = none ∧
  decodeTableWord 8 0b10000001 = none ∧ decodeTableWord 8 0b00100000 = none

/-- Address decode is by exact offset (R57, R45): it answers a register at exactly that register's offset, and none
exactly where no register is. The offsets themselves are parameters (D2). -/
def Obligations.AddressDecodeIsExact : Prop :=
  ∀ (c : Config) (off : Nat), c.Valid →
    (∀ r, decodeOff c off = some r ↔ off = c.off r) ∧ (decodeOff c off = none ↔ ∀ r, off ≠ c.off r)

/-- Decoding is total with three outcomes (R67), and a descriptor is refused exactly when it names no operation (R66):
`kind = 0b10` with `sel != 0`, `kind = 0b11` with `sel >= 3`, or a bus kind with `off >= W`. The spec's own decisions D12
and D30. R59 widens `sel` for a larger `W`; that the decoder takes any width of `sel` from six bits up, for any window, is
the model's, log 5. -/
def Obligations.RefusedDescriptorsExactly : Prop :=
  ∀ (c : Config) (d : Descriptor) (ops : Operands) (kind sel : Nat),
    kind = d.bits.toNat / 2 ^ (6 + d.extra) → sel = d.bits.toNat % 2 ^ (6 + d.extra) →
    ((∃ why, decode c (.transaction d ops) = .rejected why) ↔
      kind ≤ 1 ∧ c.windowSize ≤ sel ∨ kind = 2 ∧ sel ≠ 0 ∨ kind = 3 ∧ 3 ≤ sel) ∧
    ∀ i, decode c (.transaction d ops) = .instr i → i.wf c = true

/-- Decode and encode agree: every well-formed operation, with every operand, decodes from its encoding, for every
valid parameters, a window too wide for a 6-bit `sel` (R59) among them; how wide `sel` is then is log 5. -/
def Obligations.DecodeOfEncode : Prop :=
  ∀ (c : Config) (i : Instr), c.Valid → i.wf c = true → decode c (encode c i) = .instr i

/-- Each descriptor has one meaning: an operation decoded from a descriptor in the width of the configuration's format
(log 5) is encoded with that same descriptor. -/
def Obligations.EncodeOfDecode : Prop :=
  ∀ (c : Config) (d : Descriptor) (ops : Operands) (i : Instr), d.extra = c.selExtra → decode c (.transaction d ops) = .instr i →
    ∃ ops', encode c i = .transaction d ops'

/-! ## The bus -/

/-- Routing (R39 to R42): an address inside the window reaches the block as `addr - BASE`, and an access outside it is
no request of the block. -/
def Obligations.RoutingByWindow : Prop :=
  (∀ (c : Config) (addr off : Nat), route c addr = some off ↔ addr = c.base + off ∧ off < c.windowSize) ∧
  ∀ (c : Config) (addr size : Nat) (v : Word), (addr < c.base ∨ c.base + c.windowSize ≤ addr) →
    busReadRequest c addr size = none ∧ busWriteRequest c addr size v = none

/-- The byte lanes carry a register value unchanged in either order, and the little-endian byte at `BASE+off` is
`value[7:0]` (R46; the default order is the spec's decision D6). That the two orders are little- and big-endian is the
model's choice, log 21. -/
def Obligations.LanesCarryTheValue : Prop :=
  ∀ (o : LaneOrder) (v : Word),
    (∃ b0 b1 b2 b3, laneBytes o v = [b0, b1, b2, b3] ∧ laneWord o b0 b1 b2 b3 = v) ∧
    (laneBytes .littleEndian v).head? = some (v.setWidth 8) ∧ laneBytes .bigEndian v = (laneBytes .littleEndian v).reverse

/-- A bus line of the text form (R69) means the access it names: assembled, it decodes to the operation with that size,
the named register's or the raw offset, that direction and that value, whatever valid offsets the registers have. -/
def Obligations.BusLinesMeanTheirAccess : Prop :=
  ∀ (c : Config) (size : Nat) (g : Target) (v : Word), c.Valid → targetOffset c g < c.windowSize →
    (∃ r i, assemble c (.rd size g) = some r ∧ decode c r = .instr i ∧
      busAccessOf c i = some ⟨size, targetOffset c g, .read, none⟩) ∧
    ∃ r i, assemble c (.wr size g v) = some r ∧ decode c r = .instr i ∧
      busAccessOf c i = some ⟨size, targetOffset c g, .write, some v⟩

/-- Every access in the window is forwarded to the block and decodes as what it is (R39 to R41): its size, its offset
`addr - BASE`, its direction and its value, for every valid `W`, whatever width of `sel` the window takes (R59; log
5). -/
def Obligations.RoutedAccessesReachTheBlock : Prop :=
  ∀ (c : Config) (off size : Nat) (v : Word), c.Valid → off < c.windowSize →
    (∃ r i, busReadRequest c (c.base + off) size = some r ∧ decode c r = .instr i ∧
      busAccessOf c i = some ⟨size, off, .read, none⟩) ∧
    ∃ r i, busWriteRequest c (c.base + off) size v = some r ∧ decode c r = .instr i ∧
      busAccessOf c i = some ⟨size, off, .write, some v⟩

/-- The four backend requests (R62, R63; the spec's own decision D12) at every width of `sel` from six bits up, for every
configuration. That the decoder takes any such width, for any window, is the model's, log 5. -/
def Obligations.BackendWordsAtEveryWidth : Prop :=
  ∀ (c : Config) (extra : Nat) (ops : Operands),
    decode c (.transaction (Descriptor.ofFields extra 0b10 0) ops) = .instr (.deliver ops.b) ∧
    decode c (.transaction (Descriptor.ofFields extra 0b11 0) ops) = .instr .canAccept ∧
    decode c (.transaction (Descriptor.ofFields extra 0b11 1) ops) = .instr (.backendEvent ops.ev) ∧
    decode c (.transaction (Descriptor.ofFields extra 0b11 2) ops) = .instr .reconnect
end

