-- ==== Sys2Proof/Laws/Decode.lean ====
section
/-! SUPPORT. The fields of a descriptor, and what address decode can answer. -/

namespace Sys2Proof

/-- The upper two bits of `kind || sel`, whatever the width of `sel`. -/
theorem extractLsb'_kind (k : BitVec 2) (n sel : Nat) : (k ++ BitVec.ofNat n sel).extractLsb' n 2 = k := by
  ext i hi
  simp only [BitVec.getElem_extractLsb', BitVec.getLsbD_append]
  simp [hi]

/-- The bits below them, whatever the width of `sel`. -/
theorem extractLsb'_sel (k : BitVec 2) (n sel : Nat) : (k ++ BitVec.ofNat n sel).extractLsb' 0 n = BitVec.ofNat n sel := by
  ext i hi
  simp only [BitVec.getElem_extractLsb', BitVec.getLsbD_append]
  simp [hi]

/-- The kind of `kind || sel`, whatever the width of `sel`. -/
theorem kindOf_fields (extra : Nat) (k : Kind) (sel : Nat) :
    kindOf { extra := extra, bits := k.bits ++ BitVec.ofNat (6 + extra) sel } = k := by
  simp only [kindOf, extractLsb'_kind]
  cases k <;> rfl

/-- The selector of `kind || sel`, whatever the width of `sel`. -/
theorem selOf_fields (extra : Nat) (k : BitVec 2) (sel : Nat) :
    selOf { extra := extra, bits := k ++ BitVec.ofNat (6 + extra) sel } = sel % 2 ^ (6 + extra) := by
  simp only [selOf, extractLsb'_sel, BitVec.toNat_ofNat]

/-- Encoding a kind and reading it back. -/
@[simp] theorem kindOf_descriptor (c : Config) (k : Kind) (sel : Nat) : kindOf (descriptor c k sel) = k :=
  kindOf_fields _ k sel

/-- Encoding a selector and reading it back. -/
@[simp] theorem selOf_descriptor (c : Config) (k : Kind) (sel : Nat) :
    selOf (descriptor c k sel) = sel % 2 ^ (6 + c.selExtra) := selOf_fields _ k.bits sel

/-- A selector of six bits is the same in any wider `sel`. -/
theorem mod_two_pow_sel {n : Nat} (extra : Nat) (h : n < 64) : n % 2 ^ (6 + extra) = n :=
  Nat.mod_eq_of_lt (Nat.lt_of_lt_of_le h (Nat.pow_le_pow_right Nat.two_pos (Nat.le_add_right 6 extra)))

/-- `sel` holds every offset of the window (R59). -/
theorem Config.lt_two_pow_sel {c : Config} {off : Nat} (h : off < c.windowSize) : off < 2 ^ (6 + c.selExtra) := by
  have hl : c.windowSize - 1 < 2 ^ ((c.windowSize - 1).log2 + 1) := Nat.lt_log2_self
  have hp : 2 ^ ((c.windowSize - 1).log2 + 1) ≤ 2 ^ (6 + c.selExtra) :=
    Nat.pow_le_pow_right (by decide) (by unfold Config.selExtra; omega)
  omega

theorem kindOf_transaction {c : Config} {k : Kind} {sel : Nat} {ops ops' : Operands} {d : Descriptor}
    (h : Request.transaction (descriptor c k sel) ops = .transaction d ops') : kindOf d = k := by
  cases h
  exact kindOf_descriptor c k sel

theorem kindOf_encodeRead {c : Config} {off size : Nat} {d : Descriptor} {ops : Operands}
    (h : encodeRead c off size = .transaction d ops) : kindOf d = .busRead := kindOf_transaction h

theorem kindOf_encodeWrite {c : Config} {off size : Nat} {v : Word} {d : Descriptor} {ops : Operands}
    (h : encodeWrite c off size v = .transaction d ops) : kindOf d = .busWrite := kindOf_transaction h

/-- What address decode answers is a register at exactly that offset (R57). -/
theorem off_of_decodeOff {c : Config} {off : Nat} {r : Role} (h : decodeOff c off = some r) : off = c.off r := by
  unfold decodeOff at h
  repeat' split at h
  all_goals first | (cases h; assumption) | cases h

/-- An offset that equals no register's offset selects no register (R57). -/
theorem decodeOff_eq_none {c : Config} {off : Nat} (h : ∀ r, off ≠ c.off r) : decodeOff c off = none := by
  cases hd : decodeOff c off with
  | none => rfl
  | some r => exact absurd (off_of_decodeOff hd) (h r)

/-- Every role is in the list of all roles. -/
@[simp] theorem Role.mem_all (r : Role) : r ∈ Role.all := by cases r <;> simp [Role.all]

/-- The offset check of well-formedness, as a statement about roles. -/
theorem Config.isRegisterOffset_eq_false {c : Config} {off : Nat} :
    c.isRegisterOffset off = false ↔ ∀ r, off ≠ c.off r := by
  simp only [Config.isRegisterOffset, List.any_eq_false, beq_iff_eq]
  exact ⟨fun h r e => h r (Role.mem_all r) e.symm, fun h r _ e => h r e.symm⟩

end Sys2Proof
end

