-- ==== Sys2Proof/Laws/State.lean ====
section
/-! SUPPORT. One lemma per field per update of State, so that no later proof unfolds a record update, and what
the invariants see of each update. -/

namespace Sys2Proof.Machine

@[simp] theorem State.setRx_cfg (s : State) (bytes : List Byte) : (s.setRx bytes).cfg = s.cfg := rfl
@[simp] theorem State.setRx_rx (s : State) (bytes : List Byte) : (s.setRx bytes).rx = bytes := rfl
@[simp] theorem State.setRx_ie (s : State) (bytes : List Byte) : (s.setRx bytes).ie = s.ie := rfl
@[simp] theorem State.setRx_txctrl (s : State) (bytes : List Byte) : (s.setRx bytes).txctrl = s.txctrl := rfl
@[simp] theorem State.setRx_rxctrl (s : State) (bytes : List Byte) : (s.setRx bytes).rxctrl = s.rxctrl := rfl
@[simp] theorem State.setRx_div (s : State) (bytes : List Byte) : (s.setRx bytes).div = s.div := rfl
@[simp] theorem State.setRx_faulted (s : State) (bytes : List Byte) : (s.setRx bytes).faulted = s.faulted := rfl
@[simp] theorem State.setRx_log (s : State) (bytes : List Byte) : (s.setRx bytes).log = s.log := rfl
@[simp] theorem State.setRx_requests (s : State) (bytes : List Byte) : (s.setRx bytes).requests = s.requests := rfl
@[simp] theorem State.setRx_answers (s : State) (bytes : List Byte) : (s.setRx bytes).answers = s.answers := rfl

@[simp] theorem State.setIe_cfg (s : State) (v : Word) : (s.setIe v).cfg = s.cfg := rfl
@[simp] theorem State.setIe_rx (s : State) (v : Word) : (s.setIe v).rx = s.rx := rfl
@[simp] theorem State.setIe_ie (s : State) (v : Word) : (s.setIe v).ie = v := rfl
@[simp] theorem State.setIe_txctrl (s : State) (v : Word) : (s.setIe v).txctrl = s.txctrl := rfl
@[simp] theorem State.setIe_rxctrl (s : State) (v : Word) : (s.setIe v).rxctrl = s.rxctrl := rfl
@[simp] theorem State.setIe_div (s : State) (v : Word) : (s.setIe v).div = s.div := rfl
@[simp] theorem State.setIe_faulted (s : State) (v : Word) : (s.setIe v).faulted = s.faulted := rfl
@[simp] theorem State.setIe_log (s : State) (v : Word) : (s.setIe v).log = s.log := rfl
@[simp] theorem State.setIe_requests (s : State) (v : Word) : (s.setIe v).requests = s.requests := rfl
@[simp] theorem State.setIe_answers (s : State) (v : Word) : (s.setIe v).answers = s.answers := rfl

@[simp] theorem State.setTxctrl_cfg (s : State) (v : Word) : (s.setTxctrl v).cfg = s.cfg := rfl
@[simp] theorem State.setTxctrl_rx (s : State) (v : Word) : (s.setTxctrl v).rx = s.rx := rfl
@[simp] theorem State.setTxctrl_ie (s : State) (v : Word) : (s.setTxctrl v).ie = s.ie := rfl
@[simp] theorem State.setTxctrl_txctrl (s : State) (v : Word) : (s.setTxctrl v).txctrl = v := rfl
@[simp] theorem State.setTxctrl_rxctrl (s : State) (v : Word) : (s.setTxctrl v).rxctrl = s.rxctrl := rfl
@[simp] theorem State.setTxctrl_div (s : State) (v : Word) : (s.setTxctrl v).div = s.div := rfl
@[simp] theorem State.setTxctrl_faulted (s : State) (v : Word) : (s.setTxctrl v).faulted = s.faulted := rfl
@[simp] theorem State.setTxctrl_log (s : State) (v : Word) : (s.setTxctrl v).log = s.log := rfl
@[simp] theorem State.setTxctrl_requests (s : State) (v : Word) : (s.setTxctrl v).requests = s.requests := rfl
@[simp] theorem State.setTxctrl_answers (s : State) (v : Word) : (s.setTxctrl v).answers = s.answers := rfl

@[simp] theorem State.setRxctrl_cfg (s : State) (v : Word) : (s.setRxctrl v).cfg = s.cfg := rfl
@[simp] theorem State.setRxctrl_rx (s : State) (v : Word) : (s.setRxctrl v).rx = s.rx := rfl
@[simp] theorem State.setRxctrl_ie (s : State) (v : Word) : (s.setRxctrl v).ie = s.ie := rfl
@[simp] theorem State.setRxctrl_txctrl (s : State) (v : Word) : (s.setRxctrl v).txctrl = s.txctrl := rfl
@[simp] theorem State.setRxctrl_rxctrl (s : State) (v : Word) : (s.setRxctrl v).rxctrl = v := rfl
@[simp] theorem State.setRxctrl_div (s : State) (v : Word) : (s.setRxctrl v).div = s.div := rfl
@[simp] theorem State.setRxctrl_faulted (s : State) (v : Word) : (s.setRxctrl v).faulted = s.faulted := rfl
@[simp] theorem State.setRxctrl_log (s : State) (v : Word) : (s.setRxctrl v).log = s.log := rfl
@[simp] theorem State.setRxctrl_requests (s : State) (v : Word) : (s.setRxctrl v).requests = s.requests := rfl
@[simp] theorem State.setRxctrl_answers (s : State) (v : Word) : (s.setRxctrl v).answers = s.answers := rfl

@[simp] theorem State.setDiv_cfg (s : State) (v : Word) : (s.setDiv v).cfg = s.cfg := rfl
@[simp] theorem State.setDiv_rx (s : State) (v : Word) : (s.setDiv v).rx = s.rx := rfl
@[simp] theorem State.setDiv_ie (s : State) (v : Word) : (s.setDiv v).ie = s.ie := rfl
@[simp] theorem State.setDiv_txctrl (s : State) (v : Word) : (s.setDiv v).txctrl = s.txctrl := rfl
@[simp] theorem State.setDiv_rxctrl (s : State) (v : Word) : (s.setDiv v).rxctrl = s.rxctrl := rfl
@[simp] theorem State.setDiv_div (s : State) (v : Word) : (s.setDiv v).div = v := rfl
@[simp] theorem State.setDiv_faulted (s : State) (v : Word) : (s.setDiv v).faulted = s.faulted := rfl
@[simp] theorem State.setDiv_log (s : State) (v : Word) : (s.setDiv v).log = s.log := rfl
@[simp] theorem State.setDiv_requests (s : State) (v : Word) : (s.setDiv v).requests = s.requests := rfl
@[simp] theorem State.setDiv_answers (s : State) (v : Word) : (s.setDiv v).answers = s.answers := rfl

@[simp] theorem State.setRequests_cfg (s : State) (rs : List Request) : (s.setRequests rs).cfg = s.cfg := rfl
@[simp] theorem State.setRequests_rx (s : State) (rs : List Request) : (s.setRequests rs).rx = s.rx := rfl
@[simp] theorem State.setRequests_ie (s : State) (rs : List Request) : (s.setRequests rs).ie = s.ie := rfl
@[simp] theorem State.setRequests_txctrl (s : State) (rs : List Request) : (s.setRequests rs).txctrl = s.txctrl := rfl
@[simp] theorem State.setRequests_rxctrl (s : State) (rs : List Request) : (s.setRequests rs).rxctrl = s.rxctrl := rfl
@[simp] theorem State.setRequests_div (s : State) (rs : List Request) : (s.setRequests rs).div = s.div := rfl
@[simp] theorem State.setRequests_faulted (s : State) (rs : List Request) : (s.setRequests rs).faulted = s.faulted := rfl
@[simp] theorem State.setRequests_log (s : State) (rs : List Request) : (s.setRequests rs).log = s.log := rfl
@[simp] theorem State.setRequests_requests (s : State) (rs : List Request) : (s.setRequests rs).requests = rs := rfl
@[simp] theorem State.setRequests_answers (s : State) (rs : List Request) : (s.setRequests rs).answers = s.answers := rfl

@[simp] theorem State.markFaulted_cfg (s : State) : s.markFaulted.cfg = s.cfg := rfl
@[simp] theorem State.markFaulted_rx (s : State) : s.markFaulted.rx = s.rx := rfl
@[simp] theorem State.markFaulted_ie (s : State) : s.markFaulted.ie = s.ie := rfl
@[simp] theorem State.markFaulted_txctrl (s : State) : s.markFaulted.txctrl = s.txctrl := rfl
@[simp] theorem State.markFaulted_rxctrl (s : State) : s.markFaulted.rxctrl = s.rxctrl := rfl
@[simp] theorem State.markFaulted_div (s : State) : s.markFaulted.div = s.div := rfl
@[simp] theorem State.markFaulted_faulted (s : State) : s.markFaulted.faulted = true := rfl
@[simp] theorem State.markFaulted_log (s : State) : s.markFaulted.log = s.log := rfl
@[simp] theorem State.markFaulted_requests (s : State) : s.markFaulted.requests = s.requests := rfl
@[simp] theorem State.markFaulted_answers (s : State) : s.markFaulted.answers = s.answers := rfl

@[simp] theorem State.emit_cfg (s : State) (e : Event) : (s.emit e).cfg = s.cfg := rfl
@[simp] theorem State.emit_rx (s : State) (e : Event) : (s.emit e).rx = s.rx := rfl
@[simp] theorem State.emit_ie (s : State) (e : Event) : (s.emit e).ie = s.ie := rfl
@[simp] theorem State.emit_txctrl (s : State) (e : Event) : (s.emit e).txctrl = s.txctrl := rfl
@[simp] theorem State.emit_rxctrl (s : State) (e : Event) : (s.emit e).rxctrl = s.rxctrl := rfl
@[simp] theorem State.emit_div (s : State) (e : Event) : (s.emit e).div = s.div := rfl
@[simp] theorem State.emit_faulted (s : State) (e : Event) : (s.emit e).faulted = s.faulted := rfl
@[simp] theorem State.emit_log (s : State) (e : Event) : (s.emit e).log = s.log ++ [e] := rfl
@[simp] theorem State.emit_requests (s : State) (e : Event) : (s.emit e).requests = s.requests := rfl
@[simp] theorem State.emit_answers (s : State) (e : Event) : (s.emit e).answers = s.answers := rfl

@[simp] theorem State.answer_cfg (s : State) (a : Answer) : (s.answer a).cfg = s.cfg := rfl
@[simp] theorem State.answer_rx (s : State) (a : Answer) : (s.answer a).rx = s.rx := rfl
@[simp] theorem State.answer_ie (s : State) (a : Answer) : (s.answer a).ie = s.ie := rfl
@[simp] theorem State.answer_txctrl (s : State) (a : Answer) : (s.answer a).txctrl = s.txctrl := rfl
@[simp] theorem State.answer_rxctrl (s : State) (a : Answer) : (s.answer a).rxctrl = s.rxctrl := rfl
@[simp] theorem State.answer_div (s : State) (a : Answer) : (s.answer a).div = s.div := rfl
@[simp] theorem State.answer_faulted (s : State) (a : Answer) : (s.answer a).faulted = s.faulted := rfl
@[simp] theorem State.answer_log (s : State) (a : Answer) : (s.answer a).log = s.log := rfl
@[simp] theorem State.answer_requests (s : State) (a : Answer) : (s.answer a).requests = s.requests := rfl
@[simp] theorem State.answer_answers (s : State) (a : Answer) : (s.answer a).answers = s.answers ++ [a] := rfl

end Sys2Proof.Machine
end

