-- ==== Sys2Proof/Laws/Ops.lean ====
section
/-! SUPPORT. What each shared operation can do, said once. -/

namespace Sys2Proof.Machine

/-- In a live state an operation runs its body. -/
theorem whenLive_live {s : State} {body : State → State} (h : s.faulted = false) : whenLive s body = .next (body s) := by
  simp [whenLive, h]

/-- In a faulted state no operation takes a step (R106). -/
theorem whenLive_faulted {s : State} {body : State → State} (h : s.faulted = true) :
    whenLive s body = .fault .deviceFaulted := by
  simp [whenLive, h]

/-- If an operation answers a next state, the state was live and the next state is its body's. -/
theorem whenLive_next {s t : State} {body : State → State} (h : whenLive s body = .next t) :
    s.faulted = false ∧ t = body s := by
  unfold whenLive at h
  split at h
  · cases h
  · next hf => exact ⟨by simpa using hf, by cases h; rfl⟩

/-- A live 4-byte access runs its body. -/
theorem busAccess_live {off : Nat} {dir : Direction} {value : Option Word} {s : State} {body : State → State}
    (h : s.faulted = false) : busAccess 4 off dir value s body = .next (body s) := by
  simp [busAccess, whenLive, h]

/-- A live access of another size raises F_WIDTH (R103). -/
theorem busAccess_width {size off : Nat} {dir : Direction} {value : Option Word} {s : State} {body : State → State}
    (h : s.faulted = false) (hs : size ≠ 4) :
    busAccess size off dir value s body = .next (raiseFault .width off dir value s) := by
  simp [busAccess, whenLive, h, hs]

/-- Everything a bus access can do: the body of a 4-byte access, or F_WIDTH. -/
theorem busAccess_next {size off : Nat} {dir : Direction} {value : Option Word} {s t : State} {body : State → State}
    (h : busAccess size off dir value s body = .next t) :
    s.faulted = false ∧ (size = 4 ∧ t = body s ∨ size ≠ 4 ∧ t = raiseFault .width off dir value s) := by
  obtain ⟨hf, ht⟩ := whenLive_next h
  refine ⟨hf, ?_⟩
  by_cases hs : size = 4
  · exact .inl ⟨hs, by simpa [hs] using ht⟩
  · exact .inr ⟨hs, by simpa [hs] using ht⟩

/-- A raised fault sets the flag and logs the diagnostic; every other field is as before (R50, R102). -/
theorem raiseFault_eq (k : FaultKind) (off : Nat) (dir : Direction) (value : Option Word) (s : State) :
    raiseFault k off dir value s = { s with faulted := true, log := s.log ++ [.diagnostic k off dir value] } := rfl

/-- The level of the line after one more event. -/
@[simp] theorem State.line_emit (s : State) (e : Event) : (s.emit e).line = levelAfter s.line e := by
  simp [State.line]

/-- Updates that emit nothing leave the line where it is. -/
theorem State.line_of_log {s t : State} (h : t.log = s.log) : t.line = s.line := by
  simp [State.line, h]

/-- A raised fault does not move the line (R102). -/
theorem raiseFault_line (k : FaultKind) (off : Nat) (dir : Direction) (value : Option Word) (s : State) :
    (raiseFault k off dir value s).line = s.line := by
  simp [State.line, raiseFault, levelAfter]

/-- The interrupt condition depends on IE, the buffer and the parameters only (R24). -/
theorem irq_congr {s t : State} (hc : t.cfg = s.cfg) (hi : t.ie = s.ie) (hr : t.rx = s.rx) : irq t = irq s := by
  simp [irq, hc, hi, hr]

/-- Recomputing drives the line to the interrupt condition, and changes neither input of it (R108). -/
theorem recomputeIrq_line (s : State) : (recomputeIrq s).line = irq (recomputeIrq s) := by
  simp [recomputeIrq, levelAfter, irq]

/-- A read of an empty buffer answers the sentinel and does nothing else (R73). -/
theorem popFront_nil {s : State} (h : s.rx = []) : popFront s = s.answer (.data sentinel) := by
  simp [popFront, h]

/-- A read of a non-empty buffer pops the front byte (R73). -/
theorem popFront_cons {s : State} {b : Byte} {rest : List Byte} (h : s.rx = b :: rest) :
    popFront s = (recomputeIrq ((s.setRx rest).emit .slotFreed)).answer (.data (zext32 b)) := by
  simp [popFront, h]

/-- A delivery with room appends at the tail (R94). -/
theorem enqueue_room {s : State} {b : Byte} (h : s.rx.length < s.cfg.capacity) :
    enqueue b s = recomputeIrq (s.setRx (s.rx ++ [b])) := by
  simp [enqueue, rxReady, h]

/-- A delivery without room is dropped with a warning (R95). -/
theorem enqueue_full {s : State} {b : Byte} (h : ¬ s.rx.length < s.cfg.capacity) :
    enqueue b s = s.emit (.dropWarning b) := by
  simp [enqueue, rxReady, h]

end Sys2Proof.Machine
end

