-- ==== Sys2Proof/Laws/PerInstr.lean ====
section
/-! SUPPORT. Statements made per operation. KindBits: the descriptor an operation is encoded with carries that
operation's kind in its two upper bits (R59 to R63). -/

namespace Sys2Proof.Laws.KindBits

/-- Every descriptor of the operation's encoding carries its kind. -/
def Statement (i : Instr) : Prop := ∀ c d ops, encode c i = .transaction d ops → kindOf d = i.kind

theorem rdTxfifo (size : Nat) : Statement (.rdTxfifo size) := fun _ _ _ h => kindOf_encodeRead h
theorem rdRxfifo (size : Nat) : Statement (.rdRxfifo size) := fun _ _ _ h => kindOf_encodeRead h
theorem rdTxctrl (size : Nat) : Statement (.rdTxctrl size) := fun _ _ _ h => kindOf_encodeRead h
theorem rdRxctrl (size : Nat) : Statement (.rdRxctrl size) := fun _ _ _ h => kindOf_encodeRead h
theorem rdIe (size : Nat) : Statement (.rdIe size) := fun _ _ _ h => kindOf_encodeRead h
theorem rdIp (size : Nat) : Statement (.rdIp size) := fun _ _ _ h => kindOf_encodeRead h
theorem rdDiv (size : Nat) : Statement (.rdDiv size) := fun _ _ _ h => kindOf_encodeRead h
theorem rdUnmapped (off size : Nat) : Statement (.rdUnmapped off size) := fun _ _ _ h => kindOf_encodeRead h
theorem wrTxfifo (size : Nat) (v : Word) : Statement (.wrTxfifo size v) := fun _ _ _ h => kindOf_encodeWrite h
theorem wrRxfifo (size : Nat) (v : Word) : Statement (.wrRxfifo size v) := fun _ _ _ h => kindOf_encodeWrite h
theorem wrTxctrl (size : Nat) (v : Word) : Statement (.wrTxctrl size v) := fun _ _ _ h => kindOf_encodeWrite h
theorem wrRxctrl (size : Nat) (v : Word) : Statement (.wrRxctrl size v) := fun _ _ _ h => kindOf_encodeWrite h
theorem wrIe (size : Nat) (v : Word) : Statement (.wrIe size v) := fun _ _ _ h => kindOf_encodeWrite h
theorem wrIp (size : Nat) (v : Word) : Statement (.wrIp size v) := fun _ _ _ h => kindOf_encodeWrite h
theorem wrDiv (size : Nat) (v : Word) : Statement (.wrDiv size v) := fun _ _ _ h => kindOf_encodeWrite h
theorem wrUnmapped (off size : Nat) (v : Word) : Statement (.wrUnmapped off size v) := fun _ _ _ h => kindOf_encodeWrite h
theorem deliver (b : Byte) : Statement (.deliver b) := fun _ _ _ h => kindOf_transaction h
theorem canAccept : Statement .canAccept := fun _ _ _ h => kindOf_transaction h
theorem backendEvent (ev : EventKind) : Statement (.backendEvent ev) := fun _ _ _ h => kindOf_transaction h
theorem reconnect : Statement .reconnect := fun _ _ _ h => kindOf_transaction h

end Sys2Proof.Laws.KindBits
end

