-- ==== Sys2Proof/Laws/Step.lean ====
section
/-! SUPPORT. What one step can do, said once. -/

namespace Sys2Proof.Machine

/-- An operation that answers a next state ran in a live state (R106). -/
theorem exec_live_of_next {i : Instr} {s t : State} (h : exec i s = .next t) : s.faulted = false := by
  cases hf : s.faulted with
  | false => rfl
  | true =>
    cases i <;> simp [exec, execRdTxfifo, execRdRxfifo, execRdTxctrl, execRdRxctrl, execRdIe, execRdIp, execRdDiv, execRdUnmapped,
      execWrTxfifo, execWrRxfifo, execWrTxctrl, execWrRxctrl, execWrIe, execWrIp, execWrDiv, execWrUnmapped,
      execDeliver, execCanAccept, execBackendEvent, execReconnect, busRead, busWrite, busAccess, whenLive, hf] at h

/-- If a step answers a next state: the state was live with valid parameters, and either no request was pending and
nothing changed, or the next request decoded to an operation that gave that state. -/
theorem step_next {s t : State} (h : step s = .next t) :
    s.faulted = false ∧ s.cfg.Valid ∧
      (s.requests = [] ∧ t = s ∨
        ∃ r rest i, s.requests = r :: rest ∧ decode s.cfg r = .instr i ∧ exec i (s.setRequests rest) = .next t) := by
  unfold step at h
  split at h
  · cases h
  next hf =>
    split at h
    next hv =>
      refine ⟨by simpa using hf, hv, ?_⟩
      unfold takeRequest at h
      cases hr : s.requests with
      | nil =>
        simp only [hr, idle] at h
        cases h
        exact .inl ⟨rfl, rfl⟩
      | cons r rest =>
        simp only [hr] at h
        cases hd : decode s.cfg r with
        | instr i =>
          simp only [hd] at h
          exact .inr ⟨r, rest, i, rfl, hd, h⟩
        | rejected why =>
          simp only [hd] at h
          cases h
    · cases h

end Sys2Proof.Machine
end

