-- ==== Sys2Proof/Tests/Slice0.lean ====
section
/-! SUPPORT. Tests of the model against the spec's own words: the opcode map (R70), the vectors of 95_test_vectors.md
(named in each comment), the well-formedness smoke tests, and a witness for each statement that has hypotheses. -/

namespace Sys2Proof.Tests.Slice0

open Sys2Proof.Machine

/-- The default parameters with a base address of the test's own. -/
def cfgT : Config := { Config.thisHardware with base := 0x10013000 }

/-- The default parameters with `C = 1` (vectors RD-6, RX-11). -/
def cfgOne : Config := { cfgT with capacity := 1 }

/-- A window that a 6-bit `sel` cannot hold: `OFF_DIV = 0x40`, `W = 0x44` (R7, R40). -/
def cfgWide : Config := { cfgT with offDiv := 0x40, windowSize := 0x44 }

/-- The widest window of a 6-bit `sel` (R59). -/
def cfg64 : Config := { cfgT with windowSize := 64 }

/-- The start state `S0` of 95_test_vectors.md. -/
def s0 : State := State.initial cfgT

/-- `S0` with a buffer and an IE value. -/
def st (rx : List Byte) (ie : Word) : State := { s0 with rx := rx, ie := ie }

/-- `st` with the line asserted by an earlier drive. -/
def stUp (rx : List Byte) (ie : Word) : State := { st rx ie with log := [.drive true] }

/-- A full buffer of eight bytes, 0x01 to 0x08. -/
def eight : List Byte := [0x01, 0x02, 0x03, 0x04, 0x05, 0x06, 0x07, 0x08]

/-- The faulted state after a fault. -/
def down : State := { s0 with faulted := true }

/-- One operation's next state. -/
def after (i : Instr) (s : State) : Option State :=
  match exec i s with
  | .next t => some t
  | .fault _ | .refused _ => none

/-- One step's next state. -/
def stepped (s : State) : Option State :=
  match step s with
  | .next t => some t
  | .fault _ | .refused _ => none

/-- Operands with every slot different from the plain ones. -/
def ops : Operands := { size := 2, v := 0xDEADBEEF, b := 0x41, ev := .other 7 }

/-! ## Decoding: words written out from the opcode map (R70), operands beside them (R59) -/

theorem test_decode_rdTxfifo : decode cfgT (.transaction (.ofByte 0b00000000#8) ops) = .instr (.rdTxfifo 2) := by decide
theorem test_decode_rdRxfifo : decode cfgT (.transaction (.ofByte 0b00000100#8) ops) = .instr (.rdRxfifo 2) := by decide
theorem test_decode_rdTxctrl : decode cfgT (.transaction (.ofByte 0b00001000#8) ops) = .instr (.rdTxctrl 2) := by decide
theorem test_decode_rdRxctrl : decode cfgT (.transaction (.ofByte 0b00001100#8) ops) = .instr (.rdRxctrl 2) := by decide
theorem test_decode_rdIe : decode cfgT (.transaction (.ofByte 0b00010000#8) ops) = .instr (.rdIe 2) := by decide
theorem test_decode_rdIp : decode cfgT (.transaction (.ofByte 0b00010100#8) ops) = .instr (.rdIp 2) := by decide
theorem test_decode_rdDiv : decode cfgT (.transaction (.ofByte 0b00011000#8) ops) = .instr (.rdDiv 2) := by decide
theorem test_decode_rdUnmapped : decode cfgT (.transaction (.ofByte 0b00011100#8) ops) = .instr (.rdUnmapped 0x1C 2) := by decide
theorem test_decode_wrTxfifo : decode cfgT (.transaction (.ofByte 0b01000000#8) ops) = .instr (.wrTxfifo 2 0xDEADBEEF) := by decide
theorem test_decode_wrRxfifo : decode cfgT (.transaction (.ofByte 0b01000100#8) ops) = .instr (.wrRxfifo 2 0xDEADBEEF) := by decide
theorem test_decode_wrTxctrl : decode cfgT (.transaction (.ofByte 0b01001000#8) ops) = .instr (.wrTxctrl 2 0xDEADBEEF) := by decide
theorem test_decode_wrRxctrl : decode cfgT (.transaction (.ofByte 0b01001100#8) ops) = .instr (.wrRxctrl 2 0xDEADBEEF) := by decide
theorem test_decode_wrIe : decode cfgT (.transaction (.ofByte 0b01010000#8) ops) = .instr (.wrIe 2 0xDEADBEEF) := by decide
theorem test_decode_wrIp : decode cfgT (.transaction (.ofByte 0b01010100#8) ops) = .instr (.wrIp 2 0xDEADBEEF) := by decide
theorem test_decode_wrDiv : decode cfgT (.transaction (.ofByte 0b01011000#8) ops) = .instr (.wrDiv 2 0xDEADBEEF) := by decide
theorem test_decode_wrUnmapped : decode cfgT (.transaction (.ofByte 0b01010010#8) ops) = .instr (.wrUnmapped 0x12 2 0xDEADBEEF) := by decide
theorem test_decode_deliver : decode cfgT (.transaction (.ofByte 0b10000000#8) ops) = .instr (.deliver 0x41) := by decide
theorem test_decode_canAccept : decode cfgT (.transaction (.ofByte 0b11000000#8) ops) = .instr (.canAccept) := by decide
theorem test_decode_backendEvent : decode cfgT (.transaction (.ofByte 0b11000001#8) ops) = .instr (.backendEvent (.other 7)) := by decide
theorem test_decode_reconnect : decode cfgT (.transaction (.ofByte 0b11000010#8) ops) = .instr (.reconnect) := by decide

/-- R66: `kind = 0b10` with `sel != 0`. -/
theorem test_decode_refuses_81 : decode cfgT (.transaction (.ofByte 0x81#8) ops) = .rejected (.undefinedDescriptor (.ofByte 0x81)) := by decide
/-- R66: `kind = 0b11` with `sel >= 3`. -/
theorem test_decode_refuses_c3 : decode cfgT (.transaction (.ofByte 0xC3#8) ops) = .rejected (.undefinedDescriptor (.ofByte 0xC3)) := by decide
/-- RD-21: off >= W. -/
theorem test_decode_refuses_outside : decode cfgT (.transaction (.ofByte 0x20#8) ops) = .rejected (.outsideWindow 0x20) := by decide
/-- R59: at `W = 0x44` `sel` has 7 bits; `0b01 || 1000000` is a DIV write and `0b00 || 1000100` is off >= W. -/
theorem test_decode_wide : decode cfgWide (.transaction ⟨1, 0b011000000#9⟩ ops) = .instr (.wrDiv 2 0xDEADBEEF) ∧
    decode cfgWide (.transaction ⟨1, 0b001000100#9⟩ ops) = .rejected (.outsideWindow 0x44) ∧
    encode cfgWide .canAccept = .transaction ⟨1, 0b110000000#9⟩ Operands.plain := by decide
/-- R59: six bits up to `W = 64`, seven from 65 to 128. -/
theorem test_sel_width : cfgT.selExtra = 0 ∧ ({ cfgT with windowSize := 64 } : Config).selExtra = 0 ∧
    ({ cfgT with windowSize := 65 } : Config).selExtra = 1 ∧ ({ cfgT with windowSize := 128 } : Config).selExtra = 1 ∧
    ({ cfgT with windowSize := 129 } : Config).selExtra = 2 := by decide
/-- A step runs at `W = 0x44` (R59). -/
theorem test_step_wide : (stepped { s0 with cfg := cfgWide, requests := [encode cfgWide (.wrDiv 4 7)] }).map State.div =
    some 7 := by decide
/-- R56. -/
theorem test_decode_refuses_fetch : decode cfgT (.instructionFetch 0) = .rejected (.instructionFetch 0) := by decide
/-- R61: `WR_IE` is 0x50. -/
theorem test_encode_wrIe : encode cfgT (.wrIe 4 3) = .transaction (.ofByte 0x50#8) { Operands.plain with v := 3 } := by decide
/-- R69: `RD @0x1C`, and `CANRX`. -/
theorem test_assemble : assemble cfgT (.rd 4 (.raw 0x1C)) = some (.transaction (.ofByte 0x1C#8) Operands.plain) ∧
    assemble cfgT .canrx = some (.transaction (.ofByte 0xC0#8) Operands.plain) := by decide
/-- R69: the printed form. -/
theorem test_line_text : lineText (.wr 2 (.reg .ie) 2) = "WR.2 IE, 2" := by decide
/-- The table's word runs as the first operation after reset (R74). -/
theorem test_withFetchWord : (stepped (State.reset.withFetchWord 8 0x00)).map State.answers = some [.data 0] := by decide

/-! ## Well-formedness: each check refuses an ill-formed term -/

theorem test_wf_rdUnmapped_outside : (Instr.rdUnmapped 0x20 4).wf cfgT = false := by decide
theorem test_wf_rdUnmapped_register : (Instr.rdUnmapped 0x04 4).wf cfgT = false := by decide
theorem test_wf_wrUnmapped_outside : (Instr.wrUnmapped 0x20 4 0).wf cfgT = false := by decide
theorem test_wf_wrUnmapped_register : (Instr.wrUnmapped 0x18 4 0).wf cfgT = false := by decide
theorem test_wf_unmapped : (Instr.rdUnmapped 0x1C 4).wf cfgT = true := by decide
theorem test_valid_default : cfgT.Valid ∧ Config.thisHardware.Valid ∧ cfgOne.Valid := by decide
theorem test_invalid_capacity : ¬ ({ cfgT with capacity := 0 } : Config).Valid := by decide
theorem test_invalid_alignment : ¬ ({ cfgT with offIe := 0x11 } : Config).Valid := by decide
theorem test_invalid_shared_offset : ¬ ({ cfgT with offIe := 0x14 } : Config).Valid := by decide
theorem test_invalid_outside : ¬ ({ cfgT with windowSize := 0x18 } : Config).Valid := by decide
theorem test_invalid_div_lower : ¬ ({ cfgT with offDiv := 0x10, offIe := 0x18 } : Config).Valid := by decide
theorem test_invalid_window_short : ¬ ({ cfgT with windowSize := 0x1B } : Config).Valid := by decide
/-- R7, R40: `W` has no upper bound. -/
theorem test_valid_window_wide : cfgWide.Valid ∧ ({ cfgT with windowSize := 65 } : Config).Valid := by decide

/-! ## One step each: vectors of 95_test_vectors.md -/

/-- RD-3: byte 0x80 is data, not the sentinel. -/
theorem test_rdRxfifo_data : after (.rdRxfifo 4) (st [0x80] 0) =
    some { s0 with answers := [.data 0x00000080], log := [.slotFreed, .drive false] } := by decide
/-- RD-1, Scenario A: the sentinel, nothing else. -/
theorem test_rdRxfifo_empty : after (.rdRxfifo 4) s0 = some { s0 with answers := [.data 0x80000000] } := by decide
/-- RD-4: the line stays asserted while a byte remains. -/
theorem test_pop_keeps_line : (after (.rdRxfifo 4) (stUp [0xFF, 0x01] 2)).map (fun t => (t.rx, t.line, t.log)) =
    some ([0x01], true, [.drive true, .slotFreed, .drive true]) := by decide
/-- RD-6: `C = 1`, FULL to EMPTY, the line falls. -/
theorem test_pop_capacity_one : (after (.rdRxfifo 4) { stUp [0x7E] 2 with cfg := cfgOne }).map
    (fun t => (bufferState t, t.line, t.answers)) = some (.empty, false, [.data 0x7E]) := by decide
/-- RD-7. -/
theorem test_rdTxfifo : after (.rdTxfifo 4) (st [0x41] 2) = some { st [0x41] 2 with answers := [.data 0] } := by decide
/-- RD-8. -/
theorem test_rdIe : after (.rdIe 4) (st [] 0xFFFFFFFF) = some { st [] 0xFFFFFFFF with answers := [.data 0xFFFFFFFF] } := by
  decide
/-- RD-17: size 8 faults. -/
theorem test_rdIe_width : after (.rdIe 8) s0 =
    some { s0 with faulted := true, log := [.diagnostic .width 0x10 .read none] } := by decide
/-- RD-10: pending while masked. -/
theorem test_rdIp_masked : after (.rdIp 4) (st [0x41] 0) = some { st [0x41] 0 with answers := [.data 2] } := by decide
/-- RD-9. -/
theorem test_rdIp_empty : after (.rdIp 4) s0 = some { s0 with answers := [.data 0] } := by decide
/-- RD-12. -/
theorem test_rdTxctrl : (after (.rdTxctrl 4) { s0 with txctrl := 0x00070001 }).map State.answers =
    some [.data 0x00070001] := by decide
/-- RD-13. -/
theorem test_rdRxctrl : (after (.rdRxctrl 4) { s0 with rxctrl := 0xDEADBEEF }).map State.answers =
    some [.data 0xDEADBEEF] := by decide
/-- RD-15: the upper half is kept. -/
theorem test_rdDiv : (after (.rdDiv 4) { s0 with div := 0x00010000 }).map State.answers = some [.data 0x00010000] := by
  decide
/-- RD-19: a misaligned read. -/
theorem test_rdUnmapped : after (.rdUnmapped 0x01 4) s0 =
    some { s0 with faulted := true, log := [.diagnostic .unmapped 0x01 .read none] } := by decide
/-- RD-18: the size is checked before the offset. -/
theorem test_rdUnmapped_width : (after (.rdUnmapped 0x1C 2) s0).map State.log =
    some [.diagnostic .width 0x1C .read none] := by decide
/-- WR-2: only the low byte is sent. -/
theorem test_wrTxfifo : after (.wrTxfifo 4 0xFFFFFF00) s0 = some { s0 with log := [.txByte 0x00] } := by decide
/-- WR-5: clearing RXWM alone deasserts. -/
theorem test_wrIe_mask : (after (.wrIe 4 0xFFFFFFFD) (stUp [0x10] 2)).map (fun t => (t.ie, t.line, t.rx)) =
    some (0xFFFFFFFD, false, [0x10]) := by decide
/-- WR-4: enabling with a byte buffered asserts at once. -/
theorem test_wrIe_enable : after (.wrIe 4 2) (st [0x10] 0) = some { st [0x10] 2 with log := [.drive true] } := by decide
/-- WR-8. -/
theorem test_wrTxctrl : after (.wrTxctrl 4 0x00070003) s0 = some { s0 with txctrl := 0x00070003 } := by decide
/-- WR-9. -/
theorem test_wrRxctrl : after (.wrRxctrl 4 0xFFFFFFFF) (st [0x10] 0) =
    some { st [0x10] 0 with rxctrl := 0xFFFFFFFF } := by decide
/-- WR-10. -/
theorem test_wrDiv : after (.wrDiv 4 0) { s0 with div := 0x1B2 } = some s0 := by decide
/-- WR-11. -/
theorem test_wrRxfifo : after (.wrRxfifo 4 0x41) (st [0x20] 0) =
    some { st [0x20] 0 with faulted := true, log := [.diagnostic .undefWrite 0x04 .write (some 0x41)] } := by decide
/-- WR-16: the width before the undefined write. -/
theorem test_wrRxfifo_width : (after (.wrRxfifo 1 0x41) s0).map State.log =
    some [.diagnostic .width 0x04 .write (some 0x41)] := by decide
/-- WR-12. -/
theorem test_wrIp : after (.wrIp 4 0) (st [0x20] 0) =
    some { st [0x20] 0 with faulted := true, log := [.diagnostic .undefWrite 0x14 .write (some 0)] } := by decide
/-- WR-13. -/
theorem test_wrUnmapped : after (.wrUnmapped 0x1C 4 0x1234) { s0 with div := 5 } =
    some { s0 with div := 5, faulted := true, log := [.diagnostic .unmapped 0x1C .write (some 0x1234)] } := by decide
/-- RX-6. -/
theorem test_deliver : after (.deliver 0x00) (st [] 2) = some { st [0x00] 2 with log := [.drive true] } := by decide
/-- RX-8: a drop, no drive. -/
theorem test_deliver_drop : after (.deliver 0x09) (stUp eight 2) =
    some { stUp eight 2 with log := [.drive true, .dropWarning 0x09] } := by decide
/-- RX-2 and RX-3. -/
theorem test_canAccept : (after .canAccept (st (eight.take 7) 0)).map State.answers = some [.accept true] ∧
    (after .canAccept (st eight 0)).map State.answers = some [.accept false] := by decide
/-- RX-9. -/
theorem test_backendEvent : after (.backendEvent .disconnect) (st [0x41] 0) = some (st [0x41] 0) := by decide
/-- RX-10. -/
theorem test_reconnect : after .reconnect (st eight 0) = some { st eight 0 with answers := [.success] } := by decide
/-- F-1 and F-2: no step, whatever the request. -/
theorem test_faulted : after (.rdDiv 4) down = none ∧ after (.deliver 0x41) down = none ∧ stepped down = none := by decide
/-- R46, the default order: the byte at BASE+off is value[7:0]. -/
theorem test_lanes : registerCells cfgT 0x10 0x11223344 =
    [(0x10013010, 0x44), (0x10013011, 0x33), (0x10013012, 0x22), (0x10013013, 0x11)] := by decide
/-- R102: the faulting address is BASE + off. -/
theorem test_fault_address : faultAddress cfgT 0x1C = 0x1001301C ∧ FaultKind.undefWrite.code = 3 := by decide

/-! ## Witnesses: concrete states and operands that meet the hypotheses of each statement -/

theorem witness_TxfifoReadReturnsZero : (st [0x41] 2).faulted = false ∧ cfgT.Valid := by decide
theorem witness_StoredRegisterReads : (st [] 0xFFFFFFFF).faulted = false ∧ cfgT.Valid := by decide
theorem witness_IpReadReturnsPending : (st [0x41] 0).faulted = false ∧ cfgOne.Valid := by decide
theorem witness_RxfifoReadPopsFront : ((st [0x80] 2).faulted = false ∧ (st [0x80] 2).rx = 0x80 :: []) ∧
    (s0.faulted = false ∧ s0.rx = []) ∧ cfgT.Valid := by decide
theorem witness_RxfifoValueLayout : exec (.rdRxfifo 4) (st [0xFF] 0) =
    .next { s0 with answers := [.data 0xFF], log := [.slotFreed, .drive false] } := rfl
theorem witness_TxfifoWriteSendsLowByte : s0.faulted = false ∧ cfgT.Valid := by decide
theorem witness_IeWriteStoresAndDrives : (st [0x10] 0).faulted = false ∧ cfgT.Valid := by decide
theorem witness_ControlWritesStoreVerbatim : (st [0x10] 2).faulted = false ∧ cfgT.Valid := by decide
theorem witness_UndefinedWritesFault : (st [0x20] 0).faulted = false ∧ cfgT.Valid := by decide
theorem witness_UnmappedAccessFaults : s0.faulted = false ∧
    (cfgT.Valid ∧ 0x1F < cfgT.windowSize ∧ ∀ r ∈ Role.all, 0x1F ≠ cfgT.off r) ∧ 0x1F % 4 ≠ 0 := by decide
theorem witness_WrongSizeFaults : s0.faulted = false ∧
    busAccessOf s0.cfg (.wrIe 2 2) = some ⟨2, 0x10, .write, some 2⟩ ∧ (2 : Nat) ≠ 4 := by decide
theorem witness_FaultingStepWritesNoState : exec (.wrIp 4 0) (st [0x20] 0) =
    .next { st [0x20] 0 with faulted := true, log := [.diagnostic .undefWrite 0x14 .write (some 0)] } := rfl
theorem witness_FaultedTakesNoStep : down.faulted = true := by decide
theorem witness_NoSuccessAfterFault : down.faulted = true ∧ (after (.wrIp 4 0) s0).map State.faulted = some true := by decide
theorem witness_OnlyProtocolViolationsFault : (st eight 2).faulted = false := by decide
theorem witness_CanAcceptReportsRoom : (st eight 0).faulted = false ∧ (st eight 0).rx.length ≤ (st eight 0).cfg.capacity ∧
    s0.cfg.Valid ∧ s0.rx = [] ∧ cfgT.windowSize ≤ 64 ∧ cfg64.windowSize ≤ 64 := by decide
theorem witness_DeliverAppendsOrDrops :
    ((st (eight.take 7) 2).faulted = false ∧ (st (eight.take 7) 2).rx.length < (st (eight.take 7) 2).cfg.capacity) ∧
    (st eight 2).faulted = false ∧ ¬ (st eight 2).rx.length < (st eight 2).cfg.capacity ∧
    cfg64.windowSize ≤ 64 := by decide
theorem witness_OverrunLeavesNoTrace : (st eight 2).rx.length = (st eight 2).cfg.capacity ∧
    exec (.deliver 9) (st eight 2) = .next { st eight 2 with log := [.dropWarning 9] } := ⟨rfl, rfl⟩
theorem witness_LifecycleChangesNothing : (st [0x41] 0).faulted = false ∧ cfg64.windowSize ≤ 64 := by decide
/-- The state before, the answer, the delivery; and a full buffer read. -/
theorem witness_GateNeverDrops :
    (exec .canAccept s0 = .next { s0 with answers := [.accept true] } ∧
      exec (.deliver 1) { s0 with answers := [.accept true] } =
        .next { s0 with rx := [1], log := [.drive false], answers := [.accept true] }) ∧
    (st eight 0).cfg.Valid ∧ (st eight 0).rx.length = (st eight 0).cfg.capacity ∧
    exec (.rdRxfifo 4) (st eight 0) = .next { st (eight.drop 1) 0 with
      log := [.slotFreed, .drive false], answers := [.data 1] } ∧
    exec .canAccept { st (eight.drop 1) 0 with log := [.slotFreed, .drive false], answers := [.data 1] } =
      .next { st (eight.drop 1) 0 with log := [.slotFreed, .drive false], answers := [.data 1, .accept true] } :=
  ⟨⟨rfl, rfl⟩, by decide, rfl, rfl, rfl⟩
theorem witness_BufferChangesOnlyAtItsEnds : exec (.deliver 1) s0 =
    .next { s0 with rx := [1], log := [.drive false] } := rfl
/-- EMPTY with `C = 1`, PARTIAL one short of FULL, FULL; reads of EMPTY, of PARTIAL with one byte, of FULL. -/
theorem witness_BufferStateTransitions :
    bufferState { s0 with cfg := cfgOne } = .empty ∧ (after (.deliver 1) { s0 with cfg := cfgOne }).isSome = true ∧
    bufferState (st (eight.take 7) 0) = .partly ∧ (after (.deliver 8) (st (eight.take 7) 0)).isSome = true ∧
    bufferState (st eight 0) = .full ∧ (after (.deliver 9) (st eight 0)).isSome = true ∧
    (after (.rdRxfifo 4) s0).isSome = true ∧ bufferState (st [0x01] 0) = .partly ∧
    (after (.rdRxfifo 4) (st [0x01] 0)).isSome = true ∧ (after (.rdRxfifo 4) (st eight 0)).isSome = true ∧
    (after (.wrIe 4 2) (st eight 0)).isSome = true ∧ cfgT.Valid ∧ cfgOne.Valid ∧ eight.length ≤ cfgT.capacity := by decide
theorem witness_DeliveriesFillThenDrop : (st (eight.take 7) 2).faulted = false ∧
    (st (eight.take 7) 2).rx.length ≤ (st (eight.take 7) 2).cfg.capacity := by decide
theorem witness_DrainReturnsAllAndDeasserts : (stUp eight 2).faulted = false ∧
    (stUp eight 2).line = irq (stUp eight 2) := by decide
/-- A state with one byte, a delivery in between, then the read. -/
theorem witness_PendingThenReadReturnsData :
    exec (.rdIp 4) (st [0x41] 0) = .next { st [0x41] 0 with answers := [.data 2] } ∧
    (2 : Word).getLsbD (st [0x41] 0).cfg.ipRxwmPos.val = true ∧
    execAll [.deliver 0x42] { st [0x41] 0 with answers := [.data 2] } =
      .next { st [0x41, 0x42] 0 with log := [.drive false], answers := [.data 2] } ∧
    exec (.rdRxfifo 4) { st [0x41, 0x42] 0 with log := [.drive false], answers := [.data 2] } =
      .next { st [0x42] 0 with
        log := [.drive false, .slotFreed, .drive false], answers := [.data 2, .data 0x41] } :=
  ⟨rfl, by decide, rfl, rfl⟩
theorem witness_RecomputeIsIdempotent : (stUp [0x10] 2).line = irq (stUp [0x10] 2) := by decide
theorem witness_LineDrivenAtThreePoints : exec (.wrIe 4 2) (st [0x10] 0) =
    .next { st [0x10] 2 with log := [.drive true] } := rfl
/-- A fall by draining, a fall by masking, a rise by a delivery, a rise by enabling. -/
theorem witness_LineMovesOnlyByItsCauses :
    (stUp [0x10] 2).line = irq (stUp [0x10] 2) ∧ (stUp [0x10] 2).line = true ∧
    (after (.rdRxfifo 4) (stUp [0x10] 2)).map State.line = some false ∧
    (after (.wrIe 4 1) (stUp [0x10] 2)).map State.line = some false ∧
    (st [] 2).line = irq (st [] 2) ∧ (st [] 2).line = false ∧ (after (.deliver 1) (st [] 2)).map State.line = some true ∧
    (st [0x10] 0).line = irq (st [0x10] 0) ∧ (after (.wrIe 4 3) (st [0x10] 0)).map State.line = some true := by decide
theorem witness_OnlyRxwmBitMatters : (0xFFFFFFFF : Word).getLsbD cfgT.rxwmPos.val = (2 : Word).getLsbD cfgT.rxwmPos.val ∧
    ∀ n, Instr.deliver 1 ≠ .rdIe n := ⟨by decide, by simp⟩
theorem witness_OpaqueRegistersHaveNoEffect : (st [0x10] 2).faulted = false ∧ (∀ n, Instr.deliver 1 ≠ .rdTxctrl n) ∧
    (∀ n, Instr.deliver 1 ≠ .rdRxctrl n) ∧ ∀ n, Instr.deliver 1 ≠ .rdDiv n :=
  ⟨rfl, by simp, by simp, by simp⟩
theorem witness_StepKeepsInvariant : Inv { st [] 2 with requests := [encode cfgT (.deliver 0x41)] } ∧
    (stepped { st [] 2 with requests := [encode cfgT (.deliver 0x41)] }).map (fun t => (t.rx, t.line)) =
      some ([0x41], true) := by decide
theorem witness_InitialStateMeetsInvariant : cfgOne.Valid := by decide
/-- An instance reached by an arriving request and a step. -/
theorem witness_ReachableLineAndBound :
    Reachable ((s0.setRequests [encode cfgT (.deliver 0x41)]).setRequests []) :=
  .arrive _ _ (.arrive _ _ (.initial cfgT (by decide)))
theorem witness_OutputsOnlyGrow :
    exec (.deliver 0x41) s0 = .next { s0 with rx := [0x41], log := [.drive false] } ∧
    exec (.rdIe 8) s0 = .next { s0 with faulted := true, log := [.diagnostic .width 0x10 .read none] } := ⟨rfl, rfl⟩
/-- A state with an IE write pending. -/
def pendingWrite : State := { s0 with requests := [.transaction (.ofByte 0x50#8) ops, .instructionFetch 0] }
theorem witness_StepRunsDecodedRequest : pendingWrite.cfg.Valid ∧
    pendingWrite.requests = .transaction (.ofByte 0x50#8) ops :: [.instructionFetch 0] ∧
    decode pendingWrite.cfg (.transaction (.ofByte 0x50#8) ops) = .instr (.wrIe 2 0xDEADBEEF) := by decide
theorem witness_LiveStateAlwaysSteps : (s0.faulted = false ∧ s0.cfg.Valid ∧ s0.requests = []) ∧
    pendingWrite.faulted = false ∧ pendingWrite.cfg.Valid ∧
    pendingWrite.requests = .transaction (.ofByte 0x50#8) ops :: [.instructionFetch 0] := by decide
/-- A state with one request of `kind || sel` pending. -/
def pendingWord (d : Byte) : State := s0.setRequests [.transaction (.ofByte d) ops]
/-- A capacity of 0; a fetch; in both directions the first offset past the window and the last one a 6-bit `sel` can
name; the first and last undefined descriptors of the backend kinds; a wider `sel`. -/
theorem witness_RefusalsByName :
    ({ s0 with cfg := { cfgT with capacity := 0 } } : State).faulted = false ∧
    ({ cfgT with capacity := 0 } : Config).capacity = 0 ∧ ¬ ({ cfgT with capacity := 0 } : Config).Valid ∧
    (s0.setRequests [.instructionFetch 0]).requests = .instructionFetch 0 :: [] ∧
    s0.faulted = false ∧ s0.cfg.Valid ∧ s0.cfg.windowSize ≤ 0x20 ∧ 0x3F < 2 ^ (6 + 0) ∧
    (pendingWord 0x20).requests = .transaction (Descriptor.ofFields 0 0b00 0x20) ops :: [] ∧
    (pendingWord 0x3F).requests = .transaction (Descriptor.ofFields 0 0b00 0x3F) ops :: [] ∧
    (pendingWord 0x60).requests = .transaction (Descriptor.ofFields 0 0b01 0x20) ops :: [] ∧
    (pendingWord 0x7F).requests = .transaction (Descriptor.ofFields 0 0b01 0x3F) ops :: [] ∧
    (pendingWord 0x81).requests = .transaction (Descriptor.ofFields 0 0b10 1) ops :: [] ∧
    (pendingWord 0xBF).requests = .transaction (Descriptor.ofFields 0 0b10 0x3F) ops :: [] ∧
    (pendingWord 0xC3).requests = .transaction (Descriptor.ofFields 0 0b11 3) ops :: [] ∧
    (pendingWord 0xFF).requests = .transaction (Descriptor.ofFields 0 0b11 0x3F) ops :: [] ∧
    cfgWide.Valid ∧ cfgWide.windowSize ≤ 0x44 ∧ 0x44 < 2 ^ (6 + 1) := by
  decide
theorem witness_InstancesAreIndependent : systemStep [s0, st [0x41] 0] (0 : Fin 2) = .next [s0, st [0x41] 0] := rfl
theorem witness_AddressDecodeIsExact : cfgT.Valid ∧ decodeOff cfgT 0x18 = some .div ∧ decodeOff cfgT 0x19 = none := by decide
theorem witness_RefusedDescriptorsExactly : (0 : Nat) = (Descriptor.ofByte 0x1F#8).bits.toNat / 2 ^ (6 + 0) ∧
    (0x1F : Nat) = (Descriptor.ofByte 0x1F#8).bits.toNat % 2 ^ (6 + 0) ∧ decode cfgT (.transaction (.ofByte 0x1F#8) ops) = .instr (.rdUnmapped 0x1F 2) := by decide
theorem witness_DecodeOfEncode : cfgT.Valid ∧ (Instr.wrUnmapped 0x1F 2 0xDEADBEEF).wf cfgT = true ∧
    cfgWide.Valid ∧ (Instr.wrUnmapped 0x43 2 0xDEADBEEF).wf cfgWide = true := by decide
theorem witness_EncodeOfDecode : (Descriptor.ofByte 0x58#8).extra = cfgT.selExtra ∧ decode cfgT (.transaction (.ofByte 0x58#8) ops) = .instr (.wrDiv 2 0xDEADBEEF) := by decide
theorem witness_RoutingByWindow : 0x10012FFF < cfgT.base ∧ cfgT.base + cfgT.windowSize ≤ 0x10013020 := by decide
theorem witness_BusLinesMeanTheirAccess : cfgT.Valid ∧ targetOffset cfgT (.reg .div) < cfgT.windowSize ∧
    targetOffset cfgT (.raw 0x1F) < cfgT.windowSize := by decide
theorem witness_RoutedAccessesReachTheBlock : (cfgT.Valid ∧ 0x1F < cfgT.windowSize) ∧
    cfgWide.Valid ∧ 0x43 < cfgWide.windowSize := by decide

/-- FIFO order and the sent bytes over a run in which the two agents interleave: deliver, send, read, deliver, read. -/
theorem test_trace_interleaved :
    let s := { s0 with requests := [encode cfgT (.deliver 1), encode cfgT (.wrTxfifo 4 0x5A), encode cfgT (.rdRxfifo 4),
      encode cfgT (.deliver 2), encode cfgT (.rdRxfifo 4)] }
    (trace 5 s).filterMap Transition.accepted = [1, 2] ∧ (trace 5 s).filterMap Transition.returned = [1, 2] ∧
    (trace 5 s).filterMap Transition.toSend = [0x5A] := by decide

end Sys2Proof.Tests.Slice0
end

-- Proofs of the family 10_state.md.
section
/-! SUPPORT. One normal form for all operations: the live check, the size check, the body. From it, what an operation
can do is said once. -/

namespace Sys2Proof.Machine

/-- What an operation does to the state once the live check and the size check have passed (R107). -/
def opBody : Instr → State → State
  | .rdTxfifo _, s => s.answer (.data 0x0000_0000#32)
  | .rdRxfifo _, s => popFront s
  | .rdTxctrl _, s => s.answer (.data s.txctrl)
  | .rdRxctrl _, s => s.answer (.data s.rxctrl)
  | .rdIe _, s => s.answer (.data s.ie)
  | .rdIp _, s => s.answer (.data (ip s))
  | .rdDiv _, s => s.answer (.data s.div)
  | .rdUnmapped off _, s => raiseFault .unmapped off .read none s
  | .wrTxfifo _ v, s => s.emit (.txByte (lowByte v))
  | .wrRxfifo _ v, s => raiseFault .undefWrite s.cfg.offRxfifo .write (some v) s
  | .wrTxctrl _ v, s => s.setTxctrl v
  | .wrRxctrl _ v, s => s.setRxctrl v
  | .wrIe _ v, s => recomputeIrq (s.setIe v)
  | .wrIp _ v, s => raiseFault .undefWrite s.cfg.offIp .write (some v) s
  | .wrDiv _ v, s => s.setDiv v
  | .wrUnmapped off _ v, s => raiseFault .unmapped off .write (some v) s
  | .deliver b, s => enqueue b s
  | .canAccept, s => s.answer (.accept (rxReady s))
  | .backendEvent _, s => s
  | .reconnect, s => s.answer .success

/-- The size check of a bus access before a body; a backend operation has none (R103, R107). -/
def sizeChecked (a : Option BusAccess) (body : State → State) (s : State) : State :=
  match a with
  | none => body s
  | some a => if a.size = 4 then body s else raiseFault .width a.off a.dir a.value s

/-- The normal form of every operation: live check, size check, body (R107). -/
theorem exec_eq_whenLive (i : Instr) (s : State) :
    exec i s = whenLive s (sizeChecked (busAccessOf s.cfg i) (opBody i)) := by
  cases i <;> rfl

/-- What the size check can give: the body where it passes, or F_WIDTH. -/
theorem sizeChecked_cases (a : Option BusAccess) (body : State → State) (s : State) :
    ((∀ b, a = some b → b.size = 4) ∧ sizeChecked a body s = body s) ∨
      ∃ b, a = some b ∧ b.size ≠ 4 ∧ sizeChecked a body s = raiseFault .width b.off b.dir b.value s := by
  cases a with
  | none => exact .inl ⟨by simp, rfl⟩
  | some b =>
    by_cases hb : b.size = 4
    · exact .inl ⟨by simpa using hb, by simp [sizeChecked, hb]⟩
    · exact .inr ⟨b, rfl, hb, by simp [sizeChecked, hb]⟩

/-- Everything an operation can do: in a live state, its body with the size check passed, or F_WIDTH. -/
theorem exec_next {i : Instr} {s t : State} (h : exec i s = .next t) :
    s.faulted = false ∧
      (((∀ a, busAccessOf s.cfg i = some a → a.size = 4) ∧ t = opBody i s) ∨
        ∃ a, busAccessOf s.cfg i = some a ∧ a.size ≠ 4 ∧ t = raiseFault .width a.off a.dir a.value s) := by
  rw [exec_eq_whenLive] at h
  obtain ⟨hf, rfl⟩ := whenLive_next h
  exact ⟨hf, sizeChecked_cases _ _ _⟩

/-- Two live checks look the same through a view when the flag and the viewed results agree. -/
theorem mapNext_whenLive_congr {α : Type} {f : State → α} {s s' : State} {body body' : State → State}
    (hf : s'.faulted = s.faulted) (hb : f (body' s') = f (body s)) :
    mapNext f (whenLive s' body') = mapNext f (whenLive s body) := by
  cases h : s.faulted with
  | true => rw [whenLive_faulted h, whenLive_faulted (hf.trans h)]
  | false => rw [whenLive_live h, whenLive_live (hf.trans h), mapNext, mapNext, hb]

/-! ## The buffer (R18) and the value of an RXFIFO read (R30) -/

@[simp] theorem raiseFault_rx (k : FaultKind) (off : Nat) (dir : Direction) (value : Option Word) (s : State) :
    (raiseFault k off dir value s).rx = s.rx := rfl

@[simp] theorem recomputeIrq_rx (s : State) : (recomputeIrq s).rx = s.rx := rfl

@[simp] theorem recomputeIrq_answers (s : State) : (recomputeIrq s).answers = s.answers := rfl

/-- A read of the buffer leaves it alone or removes its front (R18, R73). -/
theorem popFront_rx (s : State) : (popFront s).rx = s.rx ∨ ∃ b, s.rx = b :: (popFront s).rx := by
  cases h : s.rx with
  | nil => exact .inl (by simp [popFront_nil h, h])
  | cons b rest => exact .inr ⟨b, by simp [popFront_cons h]⟩

/-- A delivery leaves the buffer alone or appends its byte (R18, R94, R95). -/
theorem enqueue_rx (b : Byte) (s : State) : (enqueue b s).rx = s.rx ∨ (enqueue b s).rx = s.rx ++ [b] := by
  by_cases h : s.rx.length < s.cfg.capacity
  · exact .inr (by simp [enqueue_room h])
  · exact .inl (by simp [enqueue_full h])

/-- Every body but a delivery's and an RXFIFO read's leaves the buffer alone (R18). -/
theorem opBody_rx {i : Instr} (s : State) (hd : ∀ b, i ≠ .deliver b) (hr : ∀ n, i ≠ .rdRxfifo n) :
    (opBody i s).rx = s.rx := by
  cases i with
  | deliver b => exact absurd rfl (hd b)
  | rdRxfifo n => exact absurd rfl (hr n)
  | _ => rfl

/-- The sentinel is bit 31 alone (R13). -/
theorem sentinel_getLsbD (k : Nat) : sentinel.getLsbD k = decide (k = 31) := by
  have h : sentinel = BitVec.twoPow 32 31 := by decide
  rw [h, BitVec.getLsbD_twoPow]
  simp [eq_comm]

/-- Zero extension keeps every bit of the byte and adds only zeros (R64). -/
theorem zext32_getLsbD (b : Byte) (k : Nat) : (zext32 b).getLsbD k = b.getLsbD k := by
  rw [zext32, BitVec.getLsbD_setWidth]
  by_cases hk : k < 32
  · simp [hk]
  · simp [hk, BitVec.getLsbD_of_ge b k (by omega)]

/-! ## The opaque registers (R21, R22, R23) -/

/-- The three registers no step interprets (R21, R22, R23). -/
inductive OpaqueReg where
  | txctrl
  | rxctrl
  | div

/-- The register's read. -/
def OpaqueReg.read : OpaqueReg → Nat → Instr
  | .txctrl => .rdTxctrl
  | .rxctrl => .rdRxctrl
  | .div => .rdDiv

/-- The register's write. -/
def OpaqueReg.write : OpaqueReg → Nat → Word → Instr
  | .txctrl => .wrTxctrl
  | .rxctrl => .wrRxctrl
  | .div => .wrDiv

/-- The state with the register's content replaced. -/
def State.setOpaque (s : State) : OpaqueReg → Word → State
  | .txctrl, v => s.setTxctrl v
  | .rxctrl, v => s.setRxctrl v
  | .div, v => s.setDiv v

section
variable (s : State) (r : OpaqueReg) (v w : Word)

@[simp] theorem State.setOpaque_cfg : (s.setOpaque r v).cfg = s.cfg := by cases r <;> rfl
@[simp] theorem State.setOpaque_rx : (s.setOpaque r v).rx = s.rx := by cases r <;> rfl
@[simp] theorem State.setOpaque_ie : (s.setOpaque r v).ie = s.ie := by cases r <;> rfl
@[simp] theorem State.setOpaque_faulted : (s.setOpaque r v).faulted = s.faulted := by cases r <;> rfl

@[simp] theorem State.setOpaque_setOpaque : (s.setOpaque r v).setOpaque r w = s.setOpaque r w := by cases r <;> rfl

@[simp] theorem State.setRx_setOpaque (bytes : List Byte) :
    (s.setOpaque r v).setRx bytes = (s.setRx bytes).setOpaque r v := by cases r <;> rfl
@[simp] theorem State.setIe_setOpaque (u : Word) : (s.setOpaque r v).setIe u = (s.setIe u).setOpaque r v := by
  cases r <;> rfl
@[simp] theorem State.emit_setOpaque (e : Event) : (s.setOpaque r v).emit e = (s.emit e).setOpaque r v := by
  cases r <;> rfl
@[simp] theorem State.answer_setOpaque (a : Answer) : (s.setOpaque r v).answer a = (s.answer a).setOpaque r v := by
  cases r <;> rfl
@[simp] theorem State.markFaulted_setOpaque : (s.setOpaque r v).markFaulted = s.markFaulted.setOpaque r v := by
  cases r <;> rfl

@[simp] theorem ip_setOpaque : ip (s.setOpaque r v) = ip s := by simp [ip]
@[simp] theorem rxReady_setOpaque : rxReady (s.setOpaque r v) = rxReady s := by simp [rxReady]
@[simp] theorem irq_setOpaque : irq (s.setOpaque r v) = irq s := irq_congr (by simp) (by simp) (by simp)

@[simp] theorem raiseFault_setOpaque (k : FaultKind) (off : Nat) (dir : Direction) (value : Option Word) :
    raiseFault k off dir value (s.setOpaque r v) = (raiseFault k off dir value s).setOpaque r v := by
  simp [raiseFault]

@[simp] theorem recomputeIrq_setOpaque : recomputeIrq (s.setOpaque r v) = (recomputeIrq s).setOpaque r v := by
  simp [recomputeIrq]

@[simp] theorem popFront_setOpaque : popFront (s.setOpaque r v) = (popFront s).setOpaque r v := by
  cases h : s.rx with
  | nil => simp [popFront_nil, h]
  | cons b rest => simp [popFront_cons (b := b) (rest := rest), h]

@[simp] theorem enqueue_setOpaque (b : Byte) : enqueue b (s.setOpaque r v) = (enqueue b s).setOpaque r v := by
  by_cases h : s.rx.length < s.cfg.capacity
  · simp [enqueue_room, h]
  · simp [enqueue_full, h]

/-- No body but the register's own read depends on its content: whatever it held, the results agree outside it. -/
theorem opBody_setOpaque {i : Instr} (hi : ∀ n, i ≠ r.read n) :
    (opBody i (s.setOpaque r v)).setOpaque r 0 = (opBody i s).setOpaque r 0 := by
  cases i with
  | rdTxctrl n => cases r with
    | txctrl => exact absurd rfl (hi n)
    | rxctrl | div => rfl
  | rdRxctrl n => cases r with
    | rxctrl => exact absurd rfl (hi n)
    | txctrl | div => rfl
  | rdDiv n => cases r with
    | div => exact absurd rfl (hi n)
    | txctrl | rxctrl => rfl
  | wrTxctrl | wrRxctrl | wrDiv => cases r <;> rfl
  | _ => simp [opBody]

/-- The size check reads no opaque register. -/
theorem sizeChecked_setOpaque {body : State → State} (a : Option BusAccess)
    (hb : (body (s.setOpaque r v)).setOpaque r 0 = (body s).setOpaque r 0) :
    (sizeChecked a body (s.setOpaque r v)).setOpaque r 0 = (sizeChecked a body s).setOpaque r 0 := by
  cases a with
  | none => exact hb
  | some a =>
    by_cases ha : a.size = 4
    · simpa [sizeChecked, ha] using hb
    · simp [sizeChecked, ha]

/-- What an opaque register holds changes no operation but its own read (R21, R22, R23). -/
theorem exec_setOpaque {i : Instr} (hi : ∀ n, i ≠ r.read n) :
    mapNext (·.setOpaque r 0) (exec i (s.setOpaque r v)) = mapNext (·.setOpaque r 0) (exec i s) := by
  rw [exec_eq_whenLive, exec_eq_whenLive, State.setOpaque_cfg]
  exact mapNext_whenLive_congr (by simp) (sizeChecked_setOpaque s r v _ (opBody_setOpaque s r v hi))

/-- A live 4-byte write stores every bit. -/
theorem exec_opaque_write (hf : s.faulted = false) : exec (r.write 4 v) s = .next (s.setOpaque r v) := by
  rw [exec_eq_whenLive, whenLive_live hf]
  cases r <;> rfl

/-- A live 4-byte read after the register was set returns it whole. -/
theorem exec_opaque_read (hf : s.faulted = false) :
    exec (r.read 4) (s.setOpaque r v) = .next ((s.setOpaque r v).answer (.data v)) := by
  rw [exec_eq_whenLive, whenLive_live (by simpa using hf)]
  cases r <;> rfl

/-- Written, then read back: the value as written, all 32 bits (R21, R22, R23). -/
theorem execAll_opaque_write_read (hf : s.faulted = false) :
    execAll [r.write 4 v, r.read 4] s = .next ((s.setOpaque r v).answer (.data v)) := by
  simp only [execAll, exec_opaque_write s r v hf, exec_opaque_read s r v hf]

end

end Sys2Proof.Machine
end

section
/-! The statements of the family 10_state.md. -/

open Sys2Proof Sys2Proof.Machine

/-- Settles O6: a live RXFIFO read is `popFront`, whose answer is the sentinel or the zero-extended front byte. -/
theorem rxfifoValueLayout : Obligations.RxfifoValueLayout := by
  intro s t h
  obtain ⟨-, ⟨-, rfl⟩ | ⟨hs, -⟩⟩ := busAccess_next h
  · cases hrx : s.rx with
    | nil =>
      refine ⟨sentinel, by simp [popFront_nil hrx], fun k hk => ?_, fun k _ hk => ?_, by simp [sentinel_getLsbD]⟩
      · simp [sentinel_getLsbD, show k ≠ 31 by omega]
      · simp [sentinel_getLsbD, hk.ne]
    | cons b rest =>
      refine ⟨zext32 b, by simp [popFront_cons hrx], fun k _ => zext32_getLsbD b k, fun k hk _ => ?_, ?_⟩
      · rw [zext32_getLsbD, BitVec.getLsbD_of_ge b k hk]
      · rw [zext32_getLsbD, BitVec.getLsbD_of_ge b 31 (by decide), List.isEmpty_cons]
  · exact absurd rfl hs

/-- Settles O22: an operation is F_WIDTH, which leaves the buffer, or its body, and only the bodies of a delivery and
of an RXFIFO read touch the buffer. -/
theorem bufferChangesOnlyAtItsEnds : Obligations.BufferChangesOnlyAtItsEnds := by
  intro i s t h
  obtain ⟨-, ⟨hsize, rfl⟩ | ⟨a, -, -, rfl⟩⟩ := exec_next h
  · cases i with
    | deliver b => exact (enqueue_rx b s).imp id fun h => .inl ⟨b, rfl, h⟩
    | rdRxfifo n =>
      obtain rfl : n = 4 := hsize _ rfl
      exact (popFront_rx s).imp id fun h => .inr ⟨rfl, h⟩
    | _ => exact .inl (opBody_rx s (by simp) (by simp))
  · exact .inl (raiseFault_rx ..)

/-- Settles O32: the three registers are one family, `OpaqueReg`, and no body but a register's own read depends on
what it holds. -/
theorem opaqueRegistersHaveNoEffect : Obligations.OpaqueRegistersHaveNoEffect :=
  ⟨fun s v hf =>
    ⟨execAll_opaque_write_read s .txctrl v hf, execAll_opaque_write_read s .rxctrl v hf,
      execAll_opaque_write_read s .div v hf⟩,
    fun _ s v hi => exec_setOpaque s .txctrl v hi, fun _ s v hi => exec_setOpaque s .rxctrl v hi,
    fun _ s v hi => exec_setOpaque s .div v hi⟩

end

-- Proofs of the family 20_memory.md.
section
/-! SUPPORT. What a fault leaves unchanged, the induction over a run, and what one completed step accepts and returns. -/

namespace Sys2Proof.Machine

@[simp] theorem raiseFault_answers (k : FaultKind) (off : Nat) (dir : Direction) (value : Option Word) (s : State) :
    (raiseFault k off dir value s).answers = s.answers := rfl

/-! ## Faults (R50) -/

@[simp] theorem recomputeIrq_faulted (s : State) : (recomputeIrq s).faulted = s.faulted := rfl

@[simp] theorem popFront_faulted (s : State) : (popFront s).faulted = s.faulted := by
  cases h : s.rx with
  | nil => simp [popFront_nil h]
  | cons b rest => simp [popFront_cons h]

@[simp] theorem enqueue_faulted (b : Byte) (s : State) : (enqueue b s).faulted = s.faulted := by
  by_cases h : s.rx.length < s.cfg.capacity
  · simp [enqueue_room h]
  · simp [enqueue_full h]

/-- A body leaves the fault flag alone, or it is one raised fault and nothing else (R50, R102). -/
theorem opBody_faulted_or_raiseFault (i : Instr) (s : State) :
    (opBody i s).faulted = s.faulted ∨ ∃ k off dir value, opBody i s = raiseFault k off dir value s := by
  cases i with
  | rdUnmapped | wrUnmapped | wrRxfifo | wrIp => exact .inr ⟨_, _, _, _, rfl⟩
  | rdRxfifo => exact .inl (popFront_faulted s)
  | deliver b => exact .inl (enqueue_faulted b s)
  | _ => exact .inl rfl

/-- An operation that ends with the fault flag set is one raised fault and nothing else (R50, R102). -/
theorem exec_eq_raiseFault {i : Instr} {s t : State} (h : exec i s = .next t) (ht : t.faulted = true) :
    ∃ k off dir value, t = raiseFault k off dir value s := by
  obtain ⟨hs, ⟨-, rfl⟩ | ⟨a, -, -, rfl⟩⟩ := exec_next h
  · obtain hkeep | hraise := opBody_faulted_or_raiseFault i s
    · simp [hkeep, hs] at ht
    · exact hraise
  · exact ⟨_, _, _, _, rfl⟩

/-! ## Runs (R52, R53) -/

@[simp] theorem traceEnd_nil (s : State) : traceEnd [] s = s := rfl

@[simp] theorem traceEnd_cons (x : Transition) (tr : List Transition) (s : State) :
    traceEnd (x :: tr) s = traceEnd tr x.after := by
  simp [traceEnd, List.getLast?_cons]

/-- A run of at most `k + 1` steps is over at once, or it runs the operation of the first pending request and goes on
from its next state. -/
theorem trace_succ (k : Nat) (s : State) :
    trace (k + 1) s = [] ∨
      ∃ rest i t, exec i (s.setRequests rest) = .next t ∧ trace (k + 1) s = ⟨i, s, t⟩ :: trace k t := by
  rw [trace]
  split
  next r s' t hr hstep =>
    obtain ⟨-, -, ⟨hnone, -⟩ | ⟨r', rest, i, hreq, hdec, hexec⟩⟩ := step_next hstep
    · simp [takeRequest, hnone] at hr
    · obtain ⟨rfl, -⟩ : r' = r ∧ s.setRequests rest = s' := by simpa [takeRequest, hreq] using hr
      exact .inr ⟨rest, i, t, hexec, by rw [hdec]⟩
  · exact .inl rfl

/-- What holds of the empty run, and of a run whenever it holds of the run after the first operation, holds of every
run. -/
theorem trace_induction {P : List Transition → State → Prop} (nil : ∀ s, P [] s)
    (cons : ∀ rest i s t tr, exec i (s.setRequests rest) = .next t → P tr t → P (⟨i, s, t⟩ :: tr) s) (k : Nat) :
    ∀ s, P (trace k s) s := by
  induction k with
  | zero => exact nil
  | succ k ih =>
    intro s
    obtain hend | ⟨rest, i, t, hexec, hrun⟩ := trace_succ k s
    · rw [hend]
      exact nil s
    · rw [hrun]
      exact cons rest i s t _ hexec (ih t)

/-! ## The bytes a completed step accepts and returns (R30, R94) -/

theorem Transition.accepted_eq_none {x : Transition} (h : ∀ b, x.op ≠ .deliver b) : x.accepted = none := by
  unfold Transition.accepted
  split
  next b hop => exact absurd hop (h b)
  · rfl

theorem Transition.returned_eq_none {x : Transition} (h : ∀ n, x.op ≠ .rdRxfifo n) : x.returned = none := by
  unfold Transition.returned
  split
  next n _ hop _ => exact absurd hop (h n)
  · rfl

/-- A step that answers nothing returns no byte. -/
theorem Transition.returned_of_answers_eq {x : Transition} (h : x.after.answers = x.before.answers) :
    x.returned = none := by
  simp [Transition.returned, h]

/-- An RXFIFO read that answers the sentinel returns no byte (R13). -/
theorem Transition.returned_sentinel {n : Nat} {s t : State} (h : t.answers = s.answers ++ [.data sentinel]) :
    Transition.returned ⟨.rdRxfifo n, s, t⟩ = none := by
  simp [Transition.returned, h, sentinel_getLsbD]

/-- An RXFIFO read that answers a zero-extended byte returns that byte (R30). -/
theorem Transition.returned_zext32 {n : Nat} {s t : State} {b : Byte}
    (h : t.answers = s.answers ++ [.data (zext32 b)]) :
    Transition.returned ⟨.rdRxfifo n, s, t⟩ = some b := by
  simp [Transition.returned, h, zext32]

/-- The buffer's ledger over one step: the bytes before, then the accepted byte if any, are the returned byte if any,
then the bytes after (R54). -/
def Transition.Balanced (x : Transition) : Prop :=
  x.before.rx ++ x.accepted.toList = x.returned.toList ++ x.after.rx

/-- A step that accepts nothing, returns nothing and leaves the buffer alone is balanced. -/
theorem Transition.balanced_of_rx_eq {x : Transition} (ha : x.accepted = none) (hr : x.returned = none)
    (h : x.after.rx = x.before.rx) : x.Balanced := by
  simp [Transition.Balanced, ha, hr, h]

/-- A delivery is balanced: with room its byte is accepted and appended, without room neither (R94, R95). -/
theorem enqueue_balanced (b : Byte) (s : State) (rest : List Request) :
    Transition.Balanced ⟨.deliver b, s, enqueue b (s.setRequests rest)⟩ := by
  have hret : Transition.returned ⟨.deliver b, s, enqueue b (s.setRequests rest)⟩ = none :=
    Transition.returned_eq_none (by simp)
  by_cases h : s.rx.length < s.cfg.capacity
  · have hrx : (enqueue b (s.setRequests rest)).rx = s.rx ++ [b] :=
      congrArg State.rx (enqueue_room (s := s.setRequests rest) h)
    simp [Transition.Balanced, Transition.accepted, hret, h, hrx]
  · exact Transition.balanced_of_rx_eq (by simp [Transition.accepted, h]) hret (by simp [enqueue_full, h])

/-- An RXFIFO read that passed the size check is balanced: it removes the front byte and returns it, and returns none
when there is none (R73). -/
theorem popFront_balanced (n : Nat) (s : State) (rest : List Request) :
    Transition.Balanced ⟨.rdRxfifo n, s, popFront (s.setRequests rest)⟩ := by
  have hacc : Transition.accepted ⟨.rdRxfifo n, s, popFront (s.setRequests rest)⟩ = none :=
    Transition.accepted_eq_none (by simp)
  cases hrx : s.rx with
  | nil =>
    have hpop : popFront (s.setRequests rest) = _ := popFront_nil (by simpa using hrx)
    exact Transition.balanced_of_rx_eq hacc (Transition.returned_sentinel (by simp [hpop])) (by simp [hpop])
  | cons b bytes =>
    have hpop : popFront (s.setRequests rest) = _ := popFront_cons (by simpa using hrx)
    have hret : Transition.returned ⟨.rdRxfifo n, s, popFront (s.setRequests rest)⟩ = some b :=
      Transition.returned_zext32 (by simp [hpop])
    have hrest : (popFront (s.setRequests rest)).rx = bytes := by simp [hpop]
    simp [Transition.Balanced, hacc, hret, hrest, hrx]

/-- A raised fault is balanced: it moves no byte (R50). -/
theorem raiseFault_balanced {i : Instr} (hi : ∀ b, i ≠ .deliver b) (k : FaultKind) (off : Nat) (dir : Direction)
    (value : Option Word) (s : State) (rest : List Request) :
    Transition.Balanced ⟨i, s, raiseFault k off dir value (s.setRequests rest)⟩ :=
  Transition.balanced_of_rx_eq (Transition.accepted_eq_none hi) (Transition.returned_of_answers_eq (by simp)) (by simp)

/-- Every completed step is balanced (R54). -/
theorem exec_balanced {i : Instr} {s t : State} {rest : List Request} (h : exec i (s.setRequests rest) = .next t) :
    Transition.Balanced ⟨i, s, t⟩ := by
  obtain ⟨-, ⟨-, rfl⟩ | ⟨a, ha, -, rfl⟩⟩ := exec_next h
  · cases i with
    | deliver b => exact enqueue_balanced b s rest
    | rdRxfifo n => exact popFront_balanced n s rest
    | _ =>
      exact Transition.balanced_of_rx_eq (Transition.accepted_eq_none (by simp)) (Transition.returned_eq_none (by simp))
        (opBody_rx _ (by simp) (by simp))
  · refine raiseFault_balanced ?_ ..
    rintro b rfl
    cases ha

/-- The buffer's ledger over a run: the bytes before, then the accepted deliveries, are the returned bytes, then the
bytes at the end (R54). -/
def RunBalanced (tr : List Transition) (s : State) : Prop :=
  s.rx ++ tr.filterMap Transition.accepted = tr.filterMap Transition.returned ++ (traceEnd tr s).rx

theorem runBalanced_nil (s : State) : RunBalanced [] s := by
  simp [RunBalanced]

/-- A balanced step before a balanced run is a balanced run. -/
theorem runBalanced_cons {x : Transition} {tr : List Transition} (hx : x.Balanced) (htr : RunBalanced tr x.after) :
    RunBalanced (x :: tr) x.before := by
  simp only [RunBalanced, Transition.Balanced, List.filterMap_eq_flatMap_toList, List.flatMap_cons, traceEnd_cons] at *
  rw [← List.append_assoc, hx, List.append_assoc, htr, List.append_assoc]

end Sys2Proof.Machine
end

section
/-! The statements of the family 20_memory.md. -/

open Sys2Proof Sys2Proof.Machine

/-- Settles O37, by induction over the run: every completed step is balanced, and balanced steps compose. -/
theorem fifoOrderPreserved : Obligations.FifoOrderPreserved :=
  trace_induction (P := RunBalanced) runBalanced_nil fun _ _ _ _ _ hexec => runBalanced_cons (exec_balanced hexec)

/-- Settles O13: an operation that ends faulted is one raised fault, which moves neither the line nor an input of the
interrupt condition. -/
theorem faultingStepWritesNoState : Obligations.FaultingStepWritesNoState := by
  intro i s t h ht
  obtain ⟨k, off, dir, value, rfl⟩ := exec_eq_raiseFault h ht
  exact ⟨k, off, dir, value, raiseFault_eq .., raiseFault_line .., irq_congr rfl rfl rfl⟩

end

-- Proofs of the family 40_register_read.md.
section
/-! SUPPORT. What the parameter constraints say of the offsets, which operation an access in the window decodes to, and
the interrupt condition as the statements write it. -/

namespace Sys2Proof

/-! ## The register offsets (R6, R7, R57) -/

/-- Every register offset is a multiple of 4 (R7). -/
theorem Config.Valid.off_aligned {c : Config} (h : c.Valid) (r : Role) : c.off r % 4 = 0 := by
  obtain ⟨-, haligned, -⟩ := h
  exact haligned r (Role.mem_all r)

/-- Every register offset lies in the window (R7). -/
theorem Config.Valid.off_lt {c : Config} (h : c.Valid) (r : Role) : c.off r < c.windowSize := by
  obtain ⟨-, -, -, hlt, -⟩ := h
  exact hlt r (Role.mem_all r)

/-- No two registers share an offset (R7). -/
theorem Config.Valid.off_injective {c : Config} (h : c.Valid) : Function.Injective c.off := by
  obtain ⟨-, -, hnodup, -⟩ := h
  exact fun r r' => List.inj_on_of_nodup_map hnodup (Role.mem_all r) (Role.mem_all r')

/-- Address decode answers no register only where no register is (R57). -/
theorem ne_off_of_decodeOff_eq_none {c : Config} {off : Nat} (h : decodeOff c off = none) (r : Role) :
    off ≠ c.off r := by
  unfold decodeOff at h
  split_ifs at h
  cases r <;> assumption

/-- Address decode answers a register exactly at that register's offset (R57). -/
theorem decodeOff_eq_some_iff {c : Config} (h : c.Valid) {off : Nat} {r : Role} :
    decodeOff c off = some r ↔ off = c.off r := by
  refine ⟨off_of_decodeOff, ?_⟩
  rintro rfl
  cases hd : decodeOff c (c.off r) with
  | none => exact absurd rfl (ne_off_of_decodeOff_eq_none hd r)
  | some r' => rw [h.off_injective (off_of_decodeOff hd)]

/-! ## Decoding an access in the window (R58, R60, R61) -/

/-- The selector of a descriptor with an offset of the window is that offset (R59). -/
theorem selOf_descriptor_of_lt {c : Config} {k : Kind} {off : Nat} (h : off < c.windowSize) :
    selOf (descriptor c k off) = off := by
  rw [selOf_descriptor, Nat.mod_eq_of_lt (Config.lt_two_pow_sel h)]

theorem readDescriptor_eq (c : Config) (off : Nat) : Machine.readDescriptor c off = descriptor c .busRead off := rfl

theorem writeDescriptor_eq (c : Config) (off : Nat) : Machine.writeDescriptor c off = descriptor c .busWrite off := rfl

/-- A read descriptor with an offset of the window decodes by the read column of R58's table. -/
theorem decode_readDescriptor {c : Config} {off : Nat} (h : off < c.windowSize) (ops : Operands) :
    decode c (.transaction (Machine.readDescriptor c off) ops) = .instr (decodeRead c off ops.size) := by
  simp only [readDescriptor_eq, decode, kindOf_descriptor, selOf_descriptor_of_lt h, if_pos h]

/-- A write descriptor with an offset of the window decodes by the write column of R58's table. -/
theorem decode_writeDescriptor {c : Config} {off : Nat} (h : off < c.windowSize) (ops : Operands) :
    decode c (.transaction (Machine.writeDescriptor c off) ops) = .instr (decodeWrite c off ops.size ops.v) := by
  simp only [writeDescriptor_eq, decode, kindOf_descriptor, selOf_descriptor_of_lt h, if_pos h]

/-- The read of a register (R58). -/
def Role.read : Role → Nat → Instr
  | .txfifo => .rdTxfifo
  | .rxfifo => .rdRxfifo
  | .txctrl => .rdTxctrl
  | .rxctrl => .rdRxctrl
  | .ie => .rdIe
  | .ip => .rdIp
  | .div => .rdDiv

/-- The read descriptor of a register's offset decodes to that register's read (R58, R60). -/
theorem decode_readDescriptor_off {c : Config} (h : c.Valid) (r : Role) (ops : Operands) :
    decode c (.transaction (Machine.readDescriptor c (c.off r)) ops) = .instr (r.read ops.size) := by
  rw [decode_readDescriptor (h.off_lt r), decodeRead, (decodeOff_eq_some_iff h).mpr rfl]
  cases r <;> rfl

/-- At an offset that is no register's, the read column gives the unmapped read (R58, R80). -/
theorem decodeRead_unmapped {c : Config} {off : Nat} (h : ∀ r, off ≠ c.off r) (size : Nat) :
    decodeRead c off size = .rdUnmapped off size := by
  rw [decodeRead, decodeOff_eq_none h]

/-- At an offset that is no register's, the write column gives the unmapped write (R58, R89). -/
theorem decodeWrite_unmapped {c : Config} {off : Nat} (h : ∀ r, off ≠ c.off r) (size : Nat) (v : Word) :
    decodeWrite c off size v = .wrUnmapped off size v := by
  rw [decodeWrite, decodeOff_eq_none h]

namespace Machine

/-- A live 4-byte access runs its body (R81, R107). -/
theorem exec_four {i : Instr} {s : State} {a : BusAccess} (hf : s.faulted = false) (ha : busAccessOf s.cfg i = some a)
    (hsize : a.size = 4) : exec i s = .next (opBody i s) := by
  rw [exec_eq_whenLive, whenLive_live hf, ha, sizeChecked, if_pos hsize]

/-- The interrupt condition as one decision: the enable bit is set and the buffer is non-empty (R24). -/
theorem irq_eq_decide (s : State) :
    irq s = decide (s.ie &&& (1#32 <<< s.cfg.rxwmPos.val) ≠ 0 ∧ s.rx ≠ []) := by
  rw [Bool.eq_iff_iff]
  simp [irq, Config.rxwmBit, List.length_pos_iff]

/-- A read of a non-empty buffer, as one update of the state: the events are the free slot, then the line driven to the
condition of the shorter buffer (R73). -/
theorem popFront_cons_eq {s : State} {b : Byte} {rest : List Byte} (h : s.rx = b :: rest) :
    popFront s = { s with
      rx := rest
      log := s.log ++ [.slotFreed, .drive (decide (s.ie &&& (1#32 <<< s.cfg.rxwmPos.val) ≠ 0 ∧ rest ≠ []))]
      answers := s.answers ++ [.data (zext32 b)] } := by
  have hirq : irq ((s.setRx rest).emit .slotFreed) =
      decide (s.ie &&& (1#32 <<< s.cfg.rxwmPos.val) ≠ 0 ∧ rest ≠ []) := irq_eq_decide _
  rw [popFront_cons h, recomputeIrq, hirq]
  simp only [State.answer, State.emit, State.setRx, List.append_assoc, List.cons_append, List.nil_append]

end Machine

end Sys2Proof
end

section
/-! The statements of the family 40_register_read.md. -/

open Sys2Proof Sys2Proof.Machine

/-- Settles O2: a live 4-byte read runs its body, which answers 0. -/
theorem txfifoReadReturnsZero : Obligations.TxfifoReadReturnsZero :=
  ⟨fun _ hf => exec_four hf rfl rfl, fun _ ops hv => decode_readDescriptor_off hv .txfifo ops⟩

/-- Settles O3: a live 4-byte read runs its body, which answers the stored value. -/
theorem storedRegisterReads : Obligations.StoredRegisterReads :=
  ⟨fun _ hf => ⟨exec_four hf rfl rfl, exec_four hf rfl rfl, exec_four hf rfl rfl, exec_four hf rfl rfl⟩,
    fun _ ops hv =>
      ⟨decode_readDescriptor_off hv .ie ops, decode_readDescriptor_off hv .txctrl ops,
        decode_readDescriptor_off hv .rxctrl ops, decode_readDescriptor_off hv .div ops⟩⟩

/-- Settles O4: a live 4-byte read runs its body, which answers `ip`, a function of the buffer and the bit's position
alone. -/
theorem ipReadReturnsPending : Obligations.IpReadReturnsPending :=
  ⟨fun _ hf => exec_four hf rfl rfl, fun _ ops hv => decode_readDescriptor_off hv .ip ops⟩

/-- Settles O5: a live 4-byte read runs `popFront`, which branches on the buffer. -/
theorem rxfifoReadPopsFront : Obligations.RxfifoReadPopsFront := by
  refine ⟨fun s b rest hf hrx => ?_, fun s hf hrx => ?_, fun c ops hv => decode_readDescriptor_off hv .rxfifo ops⟩
  · rw [exec_four hf rfl rfl, opBody, popFront_cons_eq hrx, zext32]
  · rw [exec_four hf rfl rfl, opBody, popFront_nil hrx, State.answer, sentinel]

/-- Settles O11: an offset that is no register's decodes to the unmapped access, whose body is one raised fault; a
misaligned offset is no register's because those are all aligned. -/
theorem unmappedAccessFaults : Obligations.UnmappedAccessFaults := by
  refine ⟨fun s off v hf => ⟨exec_four hf rfl rfl, exec_four hf rfl rfl⟩, fun c off ops _ hwin hoff => ⟨?_, ?_⟩, ?_⟩
  · rw [decode_readDescriptor hwin, decodeRead_unmapped hoff]
  · rw [decode_writeDescriptor hwin, decodeWrite_unmapped hoff]
  · rintro c off hv hmis r rfl
    exact hmis (hv.off_aligned r)

end

-- Proofs of the family 41_register_write.md.
section
/-! SUPPORT. What a register's write descriptor decodes to, and the two write bodies whose definition and statement are
spelled differently. -/

namespace Sys2Proof

/-- The write of a register (R58). -/
def Role.write : Role → Nat → Word → Instr
  | .txfifo => .wrTxfifo
  | .rxfifo => .wrRxfifo
  | .txctrl => .wrTxctrl
  | .rxctrl => .wrRxctrl
  | .ie => .wrIe
  | .ip => .wrIp
  | .div => .wrDiv

/-- The write descriptor of a register's offset decodes to that register's write (R58, R61). -/
theorem decode_writeDescriptor_off {c : Config} (h : c.Valid) (r : Role) (ops : Operands) :
    decode c (.transaction (Machine.writeDescriptor c (c.off r)) ops) = .instr (r.write ops.size ops.v) := by
  rw [decode_writeDescriptor (h.off_lt r), decodeWrite, (decodeOff_eq_some_iff h).mpr rfl]
  cases r <;> rfl

namespace Machine

/-- The byte a TXFIFO write sends is bits 7:0 of the written value (R64, R82). -/
theorem lowByte_eq_extractLsb' (v : Word) : lowByte v = v.extractLsb' 0 8 :=
  BitVec.setWidth_eq_extractLsb' (by decide)

/-- Replacing IE and recomputing, as one update of the state: the line is driven to the condition of the new value
(R83, R108). -/
theorem recomputeIrq_setIe (s : State) (v : Word) :
    recomputeIrq (s.setIe v) = { s with
      ie := v
      log := s.log ++ [.drive (decide (v &&& (1#32 <<< s.cfg.rxwmPos.val) ≠ 0 ∧ s.rx ≠ []))] } := by
  rw [recomputeIrq, irq_eq_decide]
  rfl

end Machine

end Sys2Proof
end

section
/-! The statements of the family 41_register_write.md. -/

open Sys2Proof Sys2Proof.Machine

/-- Settles O7: a live 4-byte write runs its body, which emits the low byte and writes no field. -/
theorem txfifoWriteSendsLowByte : Obligations.TxfifoWriteSendsLowByte := by
  refine ⟨fun s v hf => ?_, fun c ops hv => decode_writeDescriptor_off hv .txfifo ops⟩
  rw [exec_four hf rfl rfl, opBody, lowByte_eq_extractLsb', State.emit]

/-- Settles O8: a live 4-byte write runs its body, which stores the value and recomputes the line from it. -/
theorem ieWriteStoresAndDrives : Obligations.IeWriteStoresAndDrives := by
  refine ⟨fun s v hf => ?_, fun c ops hv => decode_writeDescriptor_off hv .ie ops⟩
  rw [exec_four hf rfl rfl, opBody, recomputeIrq_setIe]

/-- Settles O9: the three registers are the opaque ones, whose live 4-byte write is one field update. -/
theorem controlWritesStoreVerbatim : Obligations.ControlWritesStoreVerbatim :=
  ⟨fun s v hf =>
    ⟨exec_opaque_write s .txctrl v hf, exec_opaque_write s .rxctrl v hf, exec_opaque_write s .div v hf⟩,
    fun _ ops hv =>
      ⟨decode_writeDescriptor_off hv .txctrl ops, decode_writeDescriptor_off hv .rxctrl ops,
        decode_writeDescriptor_off hv .div ops⟩⟩

end

-- Proofs of the family 42_receive_path.md.
section
/-! SUPPORT. The two backend operations as their bodies, the buffer state in terms of the buffer's length, and that no
operation looks at the log: events logged before it stay before what it logs. -/

namespace Sys2Proof

/-- The buffer holds at least one byte (R6). -/
theorem Config.Valid.capacity_pos {c : Config} (h : c.Valid) : 0 < c.capacity := by
  obtain ⟨hcap, -⟩ := h
  exact hcap

namespace Machine

/-- A live backend operation runs its body: there is no size to check (R101). -/
theorem exec_backend {i : Instr} {s : State} (hf : s.faulted = false) (ha : busAccessOf s.cfg i = none) :
    exec i s = .next (opBody i s) := by
  rw [exec_eq_whenLive, whenLive_live hf, ha, sizeChecked]

/-- A delivery that answers a next state ran its body. -/
theorem eq_enqueue_of_exec_deliver {b : Byte} {s t : State} (h : exec (.deliver b) s = .next t) : t = enqueue b s := by
  obtain ⟨-, ht⟩ := whenLive_next h
  exact ht

/-- A 4-byte RXFIFO read that answers a next state ran its body. -/
theorem eq_popFront_of_exec_rdRxfifo {s t : State} (h : exec (.rdRxfifo 4) s = .next t) : t = popFront s := by
  obtain ⟨-, ⟨-, ht⟩ | ⟨hsize, -⟩⟩ := busAccess_next h
  · exact ht
  · exact absurd rfl hsize

/-- A delivery with room, as one update of the state: the buffer is non-empty afterwards, so the line is driven to the
enable bit alone (R94, R24). -/
theorem enqueue_room_eq {s : State} {b : Byte} (h : s.rx.length < s.cfg.capacity) :
    enqueue b s = { s with
      rx := s.rx ++ [b]
      log := s.log ++ [.drive (decide (s.ie &&& (1#32 <<< s.cfg.rxwmPos.val) ≠ 0))] } := by
  have hirq : irq (s.setRx (s.rx ++ [b])) = decide (s.ie &&& (1#32 <<< s.cfg.rxwmPos.val) ≠ 0) := by
    simp [irq_eq_decide]
  rw [enqueue_room h, recomputeIrq, hirq]
  rfl

/-- A delivery without room, as one update of the state (R95). -/
theorem enqueue_full_eq {s : State} {b : Byte} (h : ¬ s.rx.length < s.cfg.capacity) :
    enqueue b s = { s with log := s.log ++ [.dropWarning b] } := enqueue_full h

/-! ## The parameters (R28) -/

@[simp] theorem raiseFault_cfg (k : FaultKind) (off : Nat) (dir : Direction) (value : Option Word) (s : State) :
    (raiseFault k off dir value s).cfg = s.cfg := rfl

@[simp] theorem recomputeIrq_cfg (s : State) : (recomputeIrq s).cfg = s.cfg := rfl

@[simp] theorem popFront_cfg (s : State) : (popFront s).cfg = s.cfg := by
  cases h : s.rx with
  | nil => simp [popFront_nil h]
  | cons b rest => simp [popFront_cons h]

@[simp] theorem enqueue_cfg (b : Byte) (s : State) : (enqueue b s).cfg = s.cfg := by
  by_cases h : s.rx.length < s.cfg.capacity
  · simp [enqueue_room h]
  · simp [enqueue_full h]

/-- No body changes the parameters. -/
@[simp] theorem opBody_cfg (i : Instr) (s : State) : (opBody i s).cfg = s.cfg := by
  cases i with
  | rdRxfifo => exact popFront_cfg s
  | deliver b => exact enqueue_cfg b s
  | _ => rfl

/-! ## The buffer state (R14, R98) -/

theorem bufferState_congr {s t : State} (hc : t.cfg = s.cfg) (hr : t.rx = s.rx) : bufferState t = bufferState s := by
  simp [bufferState, hc, hr]

theorem bufferState_eq_empty_iff {s : State} : bufferState s = .empty ↔ s.rx = [] := by
  unfold bufferState
  split_ifs <;> simp_all

theorem bufferState_eq_partly_iff {s : State} :
    bufferState s = .partly ↔ s.rx ≠ [] ∧ s.rx.length < s.cfg.capacity := by
  unfold bufferState
  split_ifs <;> simp_all

theorem bufferState_eq_full_iff {s : State} :
    bufferState s = .full ↔ s.rx ≠ [] ∧ ¬ s.rx.length < s.cfg.capacity := by
  unfold bufferState
  split_ifs <;> simp_all

/-- A delivery with room leads to FULL when it takes the last slot, and to PARTIAL otherwise (R98). -/
theorem bufferState_enqueue {s : State} (b : Byte) (h : s.rx.length < s.cfg.capacity) :
    bufferState (enqueue b s) = if s.rx.length + 1 = s.cfg.capacity then .full else .partly := by
  rw [enqueue_room h]
  split_ifs with hlast
  · simp [bufferState_eq_full_iff, hlast]
  · simp only [bufferState_eq_partly_iff, recomputeIrq_rx, recomputeIrq_cfg, State.setRx_rx, State.setRx_cfg,
      List.length_append, List.length_singleton]
    exact ⟨by simp, by omega⟩

/-- A read of a non-empty buffer leads to EMPTY when it takes the last byte, and to PARTIAL otherwise (R98). -/
theorem bufferState_popFront {s : State} (hne : s.rx ≠ []) (hle : s.rx.length ≤ s.cfg.capacity) :
    bufferState (popFront s) = if s.rx.length = 1 then .empty else .partly := by
  obtain ⟨b, rest, hrx⟩ := List.exists_cons_of_ne_nil hne
  have hrest : (popFront s).rx = rest := by simp [popFront_cons hrx]
  rw [hrx, List.length_cons] at hle ⊢
  split_ifs with hlast
  · rw [bufferState_eq_empty_iff, hrest]
    exact List.length_eq_zero_iff.mp (by omega)
  · rw [bufferState_eq_partly_iff, hrest, popFront_cfg]
    exact ⟨List.length_pos_iff.mp (by omega), by omega⟩

/-! ## Earlier events (R27)

An operation only appends to the log, so it commutes with putting events before everything logged. -/

/-- The state with earlier events put before its log. -/
def State.prependLog (p : List Event) (s : State) : State := { s with log := p ++ s.log }

/-- The state with its log forgotten. -/
def State.eraseLog (s : State) : State := { s with log := [] }

section
variable (p : List Event) (s : State)

@[simp] theorem State.prependLog_cfg : (s.prependLog p).cfg = s.cfg := rfl
@[simp] theorem State.prependLog_rx : (s.prependLog p).rx = s.rx := rfl
@[simp] theorem State.prependLog_faulted : (s.prependLog p).faulted = s.faulted := rfl

/-- A state is its log put before the state without it. -/
theorem State.prependLog_log_eraseLog : s.eraseLog.prependLog s.log = s := by
  simp [State.prependLog, State.eraseLog]

@[simp] theorem irq_prependLog : irq (s.prependLog p) = irq s := rfl

@[simp] theorem State.emit_prependLog (e : Event) : (s.prependLog p).emit e = (s.emit e).prependLog p := by
  simp [State.emit, State.prependLog]

@[simp] theorem State.setRx_prependLog (bytes : List Byte) :
    (s.prependLog p).setRx bytes = (s.setRx bytes).prependLog p := rfl

@[simp] theorem State.setIe_prependLog (v : Word) : (s.prependLog p).setIe v = (s.setIe v).prependLog p := rfl

@[simp] theorem State.markFaulted_prependLog : (s.prependLog p).markFaulted = s.markFaulted.prependLog p := rfl

@[simp] theorem State.answer_prependLog (a : Answer) : (s.prependLog p).answer a = (s.answer a).prependLog p := rfl

@[simp] theorem raiseFault_prependLog (k : FaultKind) (off : Nat) (dir : Direction) (value : Option Word) :
    raiseFault k off dir value (s.prependLog p) = (raiseFault k off dir value s).prependLog p := by
  simp [raiseFault]

@[simp] theorem recomputeIrq_prependLog : recomputeIrq (s.prependLog p) = (recomputeIrq s).prependLog p := by
  simp [recomputeIrq]

@[simp] theorem popFront_prependLog : popFront (s.prependLog p) = (popFront s).prependLog p := by
  cases h : s.rx with
  | nil => simp [popFront_nil, h]
  | cons b rest => simp [popFront_cons (b := b) (rest := rest), h]

@[simp] theorem enqueue_prependLog (b : Byte) : enqueue b (s.prependLog p) = (enqueue b s).prependLog p := by
  by_cases h : s.rx.length < s.cfg.capacity
  · rw [enqueue_room h, enqueue_room (by simpa using h)]
    simp
  · rw [enqueue_full h, enqueue_full (by simpa using h), State.emit_prependLog]

/-- No body reads the log, and what it logs comes last. -/
theorem opBody_prependLog (i : Instr) : opBody i (s.prependLog p) = (opBody i s).prependLog p := by
  cases i with
  | rdRxfifo => exact popFront_prependLog p s
  | deliver b => exact enqueue_prependLog p s b
  | wrTxfifo => exact State.emit_prependLog p s _
  | wrIe => simp [opBody]
  | rdUnmapped | wrUnmapped | wrRxfifo | wrIp => exact raiseFault_prependLog p s ..
  | _ => rfl

/-- The size check neither reads nor reorders the log. -/
theorem sizeChecked_prependLog {body : State → State} (a : Option BusAccess)
    (hb : body (s.prependLog p) = (body s).prependLog p) :
    sizeChecked a body (s.prependLog p) = (sizeChecked a body s).prependLog p := by
  cases a with
  | none => exact hb
  | some a =>
    by_cases ha : a.size = 4
    · simpa [sizeChecked, ha] using hb
    · simp [sizeChecked, ha]

/-- Events logged before an operation stay before what it logs, and change nothing else about it (R27). -/
theorem exec_prependLog (i : Instr) : exec i (s.prependLog p) = mapNext (State.prependLog p) (exec i s) := by
  rw [exec_eq_whenLive, exec_eq_whenLive, State.prependLog_cfg]
  cases hf : s.faulted with
  | true => rw [whenLive_faulted hf, whenLive_faulted (by simpa using hf), mapNext]
  | false =>
    rw [whenLive_live hf, whenLive_live (by simpa using hf), mapNext,
      sizeChecked_prependLog p s _ (opBody_prependLog p s i)]

end

/-- Forgetting the log forgets what was put before it. -/
theorem mapNext_eraseLog_prependLog (p : List Event) (o : Host.Outcome State Fault Refusal) :
    mapNext State.eraseLog (mapNext (State.prependLog p) o) = mapNext State.eraseLog o := by
  cases o <;> rfl

/-- States that differ in their log alone run every operation to the same state and answers. -/
theorem exec_eraseLog_congr {s t : State} (h : t.eraseLog = s.eraseLog) (i : Instr) :
    mapNext State.eraseLog (exec i t) = mapNext State.eraseLog (exec i s) := by
  rw [← t.prependLog_log_eraseLog, ← s.prependLog_log_eraseLog, exec_prependLog, exec_prependLog,
    mapNext_eraseLog_prependLog, mapNext_eraseLog_prependLog, h]

end Machine

end Sys2Proof
end

section
/-! The statements of the family 42_receive_path.md. -/

open Sys2Proof Sys2Proof.Machine

/-- Settles O19: an overrun is one warning put at the end of the log, which no drive is, and no operation looks at the
log. -/
theorem overrunLeavesNoTrace : Obligations.OverrunLeavesNoTrace := by
  intro s t b hfull h
  obtain rfl : t = s.emit (.dropWarning b) := by
    rw [eq_enqueue_of_exec_deliver h, enqueue_full (by omega)]
  exact ⟨rfl, State.line_emit s _, exec_eraseLog_congr rfl⟩

/-- Settles O23: a delivery with room and a read of a non-empty buffer move the state by the new length; a delivery
without room and a read of an empty buffer are self-loops; every other operation keeps the buffer and its capacity. -/
theorem bufferStateTransitions : Obligations.BufferStateTransitions := by
  refine ⟨fun s t b hv h => ?_, fun s t _ hle h => ?_, fun i s t h hd hr => ?_⟩
  · obtain rfl := eq_enqueue_of_exec_deliver h
    rw [bufferState_eq_empty_iff, bufferState_eq_partly_iff, bufferState_eq_full_iff]
    refine ⟨fun hempty => ?_, fun ⟨_, hroom⟩ => bufferState_enqueue b hroom, fun ⟨_, hfull⟩ => enqueue_full_eq hfull⟩
    rw [bufferState_enqueue b (by simpa [hempty] using hv.capacity_pos), hempty, List.length_nil, Nat.zero_add]
    simp only [eq_comm (a := 1)]
  · obtain rfl := eq_popFront_of_exec_rdRxfifo h
    rw [bufferState_eq_empty_iff, bufferState_eq_partly_iff, bufferState_eq_full_iff]
    refine ⟨popFront_nil, fun ⟨hne, _⟩ => bufferState_popFront hne hle, fun ⟨hne, hfull⟩ => ?_⟩
    rw [bufferState_popFront hne hle, show s.rx.length = s.cfg.capacity by omega]
  · obtain ⟨-, ⟨-, rfl⟩ | ⟨a, -, -, rfl⟩⟩ := exec_next h
    · exact bufferState_congr (opBody_cfg i s) (opBody_rx s hd hr)
    · exact bufferState_congr (raiseFault_cfg ..) (raiseFault_rx ..)

/-- Settles O17: a live `can_accept` runs its body, which answers `rxReady`. -/
theorem canAcceptReportsRoom : Obligations.CanAcceptReportsRoom := by
  refine ⟨fun s hf => exec_backend hf rfl, fun s hle => ?_, fun s hv hempty => ?_, fun c ops _ => rfl⟩
  · rw [decide_eq_false_iff_not]
    omega
  · simpa [hempty] using hv.capacity_pos

/-- Settles O18: a live delivery runs `enqueue`, which branches on the room. -/
theorem deliverAppendsOrDrops : Obligations.DeliverAppendsOrDrops := by
  refine ⟨fun s b hf hroom => ?_, fun s b hf hfull => ?_, fun c ops _ => rfl⟩
  · rw [exec_backend hf rfl, opBody, enqueue_room_eq hroom]
  · rw [exec_backend hf rfl, opBody, enqueue_full_eq hfull]

end

-- Proofs of the family 60_exceptions.md.
section
/-! SUPPORT. The interrupt condition by bits, what an operation does to IE, that every operation keeps the line at the
interrupt condition, that what an operation logs does not depend on the log before it, and what moves the line. -/

namespace Sys2Proof.Machine

/-! ## The interrupt condition (R24) -/

/-- Masking with one bit leaves a non-zero word exactly when that bit is set (R9). -/
theorem and_one_shiftLeft_ne_zero_iff (v : Word) (p : Fin 32) :
    v &&& (1#32 <<< p.val) ≠ 0 ↔ v.getLsbD p.val = true := by
  have hmask : 1#32 <<< p.val = BitVec.twoPow 32 p.val := rfl
  have hne : BitVec.twoPow 32 p.val ≠ 0 := by
    rw [BitVec.toNat_ne, BitVec.toNat_twoPow_of_lt p.isLt]
    exact (Nat.two_pow_pos p.val).ne'
  rw [hmask, BitVec.and_twoPow]
  split_ifs with hbit
  · exact iff_of_true hne hbit
  · exact iff_of_false (fun h => h rfl) hbit

/-- The interrupt condition holds exactly when RXWM is enabled and the buffer is non-empty (R24). -/
theorem irq_eq_decide_getLsbD (s : State) :
    irq s = decide (s.ie.getLsbD s.cfg.rxwmPos.val = true ∧ s.rx ≠ []) := by
  rw [irq_eq_decide, decide_eq_decide, and_one_shiftLeft_ne_zero_iff]

theorem irq_eq_true_iff {s : State} : irq s = true ↔ s.ie.getLsbD s.cfg.rxwmPos.val = true ∧ s.rx ≠ [] := by
  rw [irq_eq_decide_getLsbD, decide_eq_true_iff]

theorem irq_eq_false_iff {s : State} : irq s = false ↔ (s.ie.getLsbD s.cfg.rxwmPos.val = true → s.rx = []) := by
  rw [irq_eq_decide_getLsbD, decide_eq_false_iff_not, not_and, ne_eq, not_not]

@[simp] theorem irq_recomputeIrq (s : State) : irq (recomputeIrq s) = irq s := rfl

/-- Recomputing logs one drive, of the interrupt condition (R108). -/
theorem recomputeIrq_log (s : State) : (recomputeIrq s).log = s.log ++ [.drive (irq s)] := rfl

@[simp] theorem irq_answer (s : State) (a : Answer) : irq (s.answer a) = irq s := rfl

@[simp] theorem State.line_answer (s : State) (a : Answer) : (s.answer a).line = s.line := rfl

/-! ## IE (R20) -/

@[simp] theorem recomputeIrq_ie (s : State) : (recomputeIrq s).ie = s.ie := rfl

@[simp] theorem raiseFault_ie (k : FaultKind) (off : Nat) (dir : Direction) (value : Option Word) (s : State) :
    (raiseFault k off dir value s).ie = s.ie := rfl

@[simp] theorem popFront_ie (s : State) : (popFront s).ie = s.ie := by
  cases h : s.rx with
  | nil => simp [popFront_nil h]
  | cons b rest => simp [popFront_cons h]

@[simp] theorem enqueue_ie (b : Byte) (s : State) : (enqueue b s).ie = s.ie := by
  by_cases h : s.rx.length < s.cfg.capacity
  · simp [enqueue_room h]
  · simp [enqueue_full h]

/-- Every body but an IE write's leaves IE alone (R20). -/
theorem opBody_ie {i : Instr} (s : State) (hi : ∀ n v, i ≠ .wrIe n v) : (opBody i s).ie = s.ie := by
  cases i with
  | wrIe n v => exact absurd rfl (hi n v)
  | rdRxfifo => exact popFront_ie s
  | deliver b => exact enqueue_ie b s
  | _ => rfl

/-- IE changes only by a 4-byte IE write, to the written value (R20, R83). -/
theorem exec_ie {i : Instr} {s t : State} (h : exec i s = .next t) :
    t.ie = s.ie ∨ ∃ v, i = .wrIe 4 v ∧ t.ie = v := by
  obtain ⟨-, ⟨hsize, rfl⟩ | ⟨a, -, -, rfl⟩⟩ := exec_next h
  · cases i with
    | wrIe n v =>
      obtain rfl : n = 4 := hsize _ rfl
      exact .inr ⟨v, rfl, rfl⟩
    | _ => exact .inl (opBody_ie s (by simp))
  · exact .inl (raiseFault_ie ..)

/-- No operation changes the parameters (R28). -/
theorem exec_cfg {i : Instr} {s t : State} (h : exec i s = .next t) : t.cfg = s.cfg := by
  obtain ⟨-, ⟨-, rfl⟩ | ⟨a, -, -, rfl⟩⟩ := exec_next h
  · exact opBody_cfg i s
  · exact raiseFault_cfg ..

/-! ## The line follows the interrupt condition (I3 of R32) -/

/-- A raised fault keeps the line at the interrupt condition: it moves neither (R50). -/
theorem raiseFault_line_eq_irq {s : State} (h : s.line = irq s) (k : FaultKind) (off : Nat) (dir : Direction)
    (value : Option Word) : (raiseFault k off dir value s).line = irq (raiseFault k off dir value s) :=
  (raiseFault_line ..).trans h

/-- A read of the buffer keeps the line at the interrupt condition: it recomputes if it pops, and else it only answers
(R73). -/
theorem popFront_line_eq_irq {s : State} (h : s.line = irq s) : (popFront s).line = irq (popFront s) := by
  cases hrx : s.rx with
  | nil => simpa [popFront_nil hrx] using h
  | cons b rest => simp only [popFront_cons hrx, State.line_answer, irq_answer, recomputeIrq_line]

/-- A delivery keeps the line at the interrupt condition: it recomputes if there is room, and else it only warns (R94,
R95). -/
theorem enqueue_line_eq_irq {s : State} (h : s.line = irq s) (b : Byte) : (enqueue b s).line = irq (enqueue b s) := by
  by_cases hroom : s.rx.length < s.cfg.capacity
  · rw [enqueue_room hroom, recomputeIrq_line]
  · rw [enqueue_full hroom, State.line_emit]
    exact h

/-- Every body keeps the line at the interrupt condition (I3 of R32). -/
theorem opBody_line_eq_irq {s : State} (h : s.line = irq s) (i : Instr) : (opBody i s).line = irq (opBody i s) := by
  cases i with
  | rdRxfifo => exact popFront_line_eq_irq h
  | deliver b => exact enqueue_line_eq_irq h b
  | wrIe => exact recomputeIrq_line _
  | wrTxfifo => exact (State.line_emit ..).trans h
  | rdUnmapped | wrUnmapped | wrRxfifo | wrIp => exact raiseFault_line_eq_irq h ..
  | _ => exact h

/-- Every operation keeps the line at the interrupt condition (I3 of R32). -/
theorem exec_line_eq_irq {i : Instr} {s t : State} (hs : s.line = irq s) (h : exec i s = .next t) : t.line = irq t := by
  obtain ⟨-, ⟨-, rfl⟩ | ⟨a, -, -, rfl⟩⟩ := exec_next h
  · exact opBody_line_eq_irq hs i
  · exact raiseFault_line_eq_irq hs ..

/-! ## The log before an operation (R27, R111) -/

/-- The events after those put before the log, and the state without its log, do not depend on what was put before. -/
theorem mapNext_drop_prependLog (p : List Event) (o : Host.Outcome State Fault Refusal) :
    mapNext (fun t => (t.log.drop p.length, { t with log := [] })) (mapNext (State.prependLog p) o) =
      mapNext (fun t => (t.log, t.eraseLog)) o := by
  cases o with
  | next t => simp [mapNext, State.prependLog, State.eraseLog]
  | fault | refused => rfl

/-- What an operation logs, answers and leaves behind is the same after any log as after the empty one (R111). -/
theorem exec_setLog (i : Instr) (s : State) (l : List Event) :
    mapNext (fun t => (t.log.drop l.length, { t with log := [] })) (exec i { s with log := l }) =
      mapNext (fun t => (t.log, t.eraseLog)) (exec i s.eraseLog) := by
  have hlog : { s with log := l } = s.eraseLog.prependLog l := by simp [State.prependLog, State.eraseLog]
  rw [hlog, exec_prependLog, mapNext_drop_prependLog]

/-! ## What moves the line (R111) -/

/-- An asserted line that falls was enabled with a byte in the buffer: either IE is as it was and a read emptied the
buffer, or an IE write cleared RXWM (R111). -/
theorem line_falls_by_drain_or_mask {i : Instr} {s t : State} (hs : s.line = irq s) (h : exec i s = .next t)
    (hup : s.line = true) (hdown : t.line = false) :
    (i = .rdRxfifo 4 ∧ t.rx = []) ∨ ∃ v, i = .wrIe 4 v ∧ v.getLsbD s.cfg.rxwmPos.val = false := by
  rw [hs, irq_eq_true_iff] at hup
  rw [exec_line_eq_irq hs h, irq_eq_false_iff, exec_cfg h] at hdown
  obtain ⟨henabled, hne⟩ := hup
  have hbuffer := bufferChangesOnlyAtItsEnds i s t h
  obtain hie | ⟨v, rfl, hie⟩ := exec_ie h
  · have hempty : t.rx = [] := hdown (hie ▸ henabled)
    obtain hrx | ⟨b, -, hrx⟩ | ⟨hread, -⟩ := hbuffer
    · exact absurd (hrx ▸ hempty) hne
    · simp [hrx] at hempty
    · exact .inl ⟨hread, hempty⟩
  · have hrx : t.rx = s.rx := by simpa using hbuffer
    refine .inr ⟨v, rfl, Bool.eq_false_iff.mpr fun hv => hne ?_⟩
    rw [← hrx, hdown (hie ▸ hv)]

/-- A deasserted line that rises is enabled with a byte in the buffer: either IE is as it was and a delivery filled the
empty buffer, or an IE write set RXWM (R111). -/
theorem line_rises_by_delivery_or_enable {i : Instr} {s t : State} (hs : s.line = irq s) (h : exec i s = .next t)
    (hdown : s.line = false) (hup : t.line = true) :
    (∃ b, i = .deliver b ∧ s.rx = []) ∨ ∃ v, i = .wrIe 4 v ∧ v.getLsbD s.cfg.rxwmPos.val = true := by
  rw [hs, irq_eq_false_iff] at hdown
  rw [exec_line_eq_irq hs h, irq_eq_true_iff, exec_cfg h] at hup
  obtain ⟨henabled, hne⟩ := hup
  obtain hie | ⟨v, rfl, hie⟩ := exec_ie h
  · have hempty : s.rx = [] := hdown (hie ▸ henabled)
    obtain hrx | ⟨b, rfl, -⟩ | ⟨-, b, hrx⟩ := bufferChangesOnlyAtItsEnds i s t h
    · exact absurd (hrx.trans hempty) hne
    · exact .inl ⟨b, rfl, hempty⟩
    · simp [hempty] at hrx
  · exact .inr ⟨v, rfl, hie ▸ henabled⟩

end Sys2Proof.Machine
end

section
/-! The statements of the family 60_exceptions.md. -/

open Sys2Proof Sys2Proof.Machine

/-- Settles O30: an operation keeps the line at the interrupt condition, whose inputs IE and the buffer each change by
their own operations alone; and what it does after any log is what it does after the empty one. -/
theorem lineMovesOnlyByItsCauses : Obligations.LineMovesOnlyByItsCauses :=
  ⟨fun _ _ _ => line_falls_by_drain_or_mask, fun _ _ _ => line_rises_by_delivery_or_enable,
    fun i s l => (exec_setLog i s l).trans (exec_setLog i s s.log).symm⟩

/-- Settles O27: the recomputation emits one drive of `irq`, which is the stated condition. -/
theorem recomputeDrivesCondition : Obligations.RecomputeDrivesCondition := by
  refine fun s => ⟨?_, irq_eq_decide_getLsbD s⟩
  rw [recomputeIrq, irq_eq_decide_getLsbD, State.emit]

/-- Settles O28: a recomputation leaves the line at the interrupt condition and does not change that condition. -/
theorem recomputeIsIdempotent : Obligations.RecomputeIsIdempotent := by
  refine fun s => ⟨?_, ?_, fun hs => ?_⟩
  · simp only [recomputeIrq_line, irq_recomputeIrq]
  · simp only [recomputeIrq_log, irq_recomputeIrq, List.getLast?_concat]
  · rw [recomputeIrq_line, irq_recomputeIrq, hs]

end

-- Proofs of the family other.
section
/-! SUPPORT. The decoder, one equation per kind of descriptor; what a decoded bus access asks for; and that the encoder
inverts the decoder, and the decoder the encoder. -/

namespace Sys2Proof

/-! ## The two fields of a descriptor (R59) -/

/-- The bits of the kind a descriptor is read as are its two upper bits. -/
theorem bits_kindOf (d : Descriptor) : (kindOf d).bits = d.bits.extractLsb' (6 + d.extra) 2 := by
  unfold kindOf
  generalize d.bits.extractLsb' (6 + d.extra) 2 = k
  revert k
  decide

/-- A descriptor in the width of the configuration's format is determined by its kind and its selector. -/
theorem descriptor_kindOf_selOf {c : Config} {d : Descriptor} (h : d.extra = c.selExtra) :
    descriptor c (kindOf d) (selOf d) = d := by
  obtain ⟨extra, bits⟩ := d
  obtain rfl : extra = c.selExtra := h
  rw [descriptor, bits_kindOf, selOf, BitVec.ofNat_toNat, BitVec.setWidth_eq,
    BitVec.extractLsb'_append_extractLsb'_eq_extractLsb' (by rw [Nat.zero_add]), BitVec.extractLsb'_eq_self]

/-- The kind of a descriptor, as the number of its bits above `sel`. -/
theorem toNat_bits_kindOf (d : Descriptor) : (kindOf d).bits.toNat = d.bits.toNat / 2 ^ (6 + d.extra) := by
  have hlt : d.bits.toNat / 2 ^ (6 + d.extra) < 2 ^ 2 := by
    rw [Nat.div_lt_iff_lt_mul (Nat.two_pow_pos _), ← Nat.pow_add]
    exact d.bits.isLt
  rw [bits_kindOf, BitVec.extractLsb'_toNat, Nat.shiftRight_eq_div_pow, Nat.mod_eq_of_lt hlt]

/-- The selector of a descriptor, as the number of its lower bits. -/
theorem selOf_eq_mod (d : Descriptor) : selOf d = d.bits.toNat % 2 ^ (6 + d.extra) := by
  rw [selOf, BitVec.extractLsb'_toNat, Nat.shiftRight_zero]

/-! ## The decoder, by kind (R60 to R67) -/

section
variable (c : Config) {d : Descriptor} (ops : Operands)

theorem decode_busRead (h : kindOf d = .busRead) : decode c (.transaction d ops) =
    if selOf d < c.windowSize then .instr (decodeRead c (selOf d) ops.size)
    else .rejected (.outsideWindow (selOf d)) := by
  simp only [decode, h]

theorem decode_busWrite (h : kindOf d = .busWrite) : decode c (.transaction d ops) =
    if selOf d < c.windowSize then .instr (decodeWrite c (selOf d) ops.size ops.v)
    else .rejected (.outsideWindow (selOf d)) := by
  simp only [decode, h]

theorem decode_deliver (h : kindOf d = .deliver) : decode c (.transaction d ops) =
    if selOf d = 0 then .instr (.deliver ops.b) else .rejected (.undefinedDescriptor d) := by
  simp only [decode, h]

theorem decode_control (h : kindOf d = .control) : decode c (.transaction d ops) = decodeControl d ops.ev := by
  simp only [decode, h]

end

theorem decodeControl_zero {d : Descriptor} (h : selOf d = 0) (ev : EventKind) :
    decodeControl d ev = .instr .canAccept := by
  simp only [decodeControl, h]

theorem decodeControl_one {d : Descriptor} (h : selOf d = 1) (ev : EventKind) :
    decodeControl d ev = .instr (.backendEvent ev) := by
  simp only [decodeControl, h]

theorem decodeControl_two {d : Descriptor} (h : selOf d = 2) (ev : EventKind) :
    decodeControl d ev = .instr .reconnect := by
  simp only [decodeControl, h]

/-- A control descriptor with a selector from 3 up names no operation (R66). -/
theorem decodeControl_undefined {d : Descriptor} (h : 3 ≤ selOf d) (ev : EventKind) :
    decodeControl d ev = .rejected (.undefinedDescriptor d) := by
  unfold decodeControl
  split
  · omega
  · omega
  · omega
  · rfl

/-- Everything the decoder answers an operation for: a bus access in the window, a delivery, or one of the three
control requests (R60 to R63). -/
theorem decode_instr {c : Config} {d : Descriptor} {ops : Operands} {i : Instr}
    (h : decode c (.transaction d ops) = .instr i) :
    (kindOf d = .busRead ∧ selOf d < c.windowSize ∧ i = decodeRead c (selOf d) ops.size) ∨
    (kindOf d = .busWrite ∧ selOf d < c.windowSize ∧ i = decodeWrite c (selOf d) ops.size ops.v) ∨
    (kindOf d = .deliver ∧ selOf d = 0 ∧ i = .deliver ops.b) ∨
    (kindOf d = .control ∧
      (selOf d = 0 ∧ i = .canAccept ∨ selOf d = 1 ∧ i = .backendEvent ops.ev ∨ selOf d = 2 ∧ i = .reconnect)) := by
  cases hk : kindOf d with
  | busRead =>
    rw [decode_busRead c ops hk] at h
    split at h
    next hlt => exact .inl ⟨rfl, hlt, by cases h; rfl⟩
    · cases h
  | busWrite =>
    rw [decode_busWrite c ops hk] at h
    split at h
    next hlt => exact .inr (.inl ⟨rfl, hlt, by cases h; rfl⟩)
    · cases h
  | deliver =>
    rw [decode_deliver c ops hk] at h
    split at h
    next hsel => exact .inr (.inr (.inl ⟨rfl, hsel, by cases h; rfl⟩))
    · cases h
  | control =>
    rw [decode_control c ops hk] at h
    refine .inr (.inr (.inr ⟨rfl, ?_⟩))
    unfold decodeControl at h
    split at h
    next hsel => exact .inl ⟨hsel, by cases h; rfl⟩
    next hsel => exact .inr (.inl ⟨hsel, by cases h; rfl⟩)
    next hsel => exact .inr (.inr ⟨hsel, by cases h; rfl⟩)
    · cases h

/-- A descriptor is refused exactly when it names no operation (R66). -/
theorem decode_rejected_iff (c : Config) (d : Descriptor) (ops : Operands) :
    (∃ why, decode c (.transaction d ops) = .rejected why) ↔
      (kindOf d).bits.toNat ≤ 1 ∧ c.windowSize ≤ selOf d ∨ (kindOf d).bits.toNat = 2 ∧ selOf d ≠ 0 ∨
        (kindOf d).bits.toNat = 3 ∧ 3 ≤ selOf d := by
  cases hk : kindOf d with
  | busRead =>
    rw [decode_busRead c ops hk]
    by_cases hlt : selOf d < c.windowSize
    · simp [hlt, Kind.bits]
    · simp [hlt, Kind.bits, not_lt.mp hlt]
  | busWrite =>
    rw [decode_busWrite c ops hk]
    by_cases hlt : selOf d < c.windowSize
    · simp [hlt, Kind.bits]
    · simp [hlt, Kind.bits, not_lt.mp hlt]
  | deliver =>
    rw [decode_deliver c ops hk]
    by_cases hsel : selOf d = 0
    · simp [hsel, Kind.bits]
    · simp [hsel, Kind.bits]
  | control =>
    rw [decode_control c ops hk]
    by_cases hsel : 3 ≤ selOf d
    · simp [decodeControl_undefined hsel, hsel, Kind.bits]
    · obtain h0 | h1 | h2 : selOf d = 0 ∨ selOf d = 1 ∨ selOf d = 2 := by omega
      · simp [decodeControl_zero h0, h0, Kind.bits]
      · simp [decodeControl_one h1, h1, Kind.bits]
      · simp [decodeControl_two h2, h2, Kind.bits]

/-! ## Bus accesses in the window (R39 to R41, R58) -/

/-- The request of a bus read in the window decodes by the read column of R58's table. -/
theorem decode_encodeRead {c : Config} {off : Nat} (h : off < c.windowSize) (size : Nat) :
    decode c (encodeRead c off size) = .instr (decodeRead c off size) := decode_readDescriptor h _

/-- The request of a bus write in the window decodes by the write column of R58's table. -/
theorem decode_encodeWrite {c : Config} {off : Nat} (h : off < c.windowSize) (size : Nat) (v : Word) :
    decode c (encodeWrite c off size v) = .instr (decodeWrite c off size v) := decode_writeDescriptor h _

/-- The request of a read at a register's offset decodes to that register's read. -/
theorem decode_encodeRead_off {c : Config} (h : c.Valid) (r : Role) (size : Nat) :
    decode c (encodeRead c (c.off r) size) = .instr (r.read size) := decode_readDescriptor_off h r _

/-- The request of a write at a register's offset decodes to that register's write. -/
theorem decode_encodeWrite_off {c : Config} (h : c.Valid) (r : Role) (size : Nat) (v : Word) :
    decode c (encodeWrite c (c.off r) size v) = .instr (r.write size v) := decode_writeDescriptor_off h r _

section
variable (c : Config) (off size : Nat) (v : Word)

/-- Everything the read column can give: a register's read at that register's offset, or the unmapped read where no
register is (R57, R58). -/
theorem decodeRead_cases :
    (∃ r, off = c.off r ∧ decodeRead c off size = r.read size) ∨
      (∀ r, off ≠ c.off r) ∧ decodeRead c off size = .rdUnmapped off size := by
  cases hd : decodeOff c off with
  | none =>
    have hoff := ne_off_of_decodeOff_eq_none hd
    exact .inr ⟨hoff, decodeRead_unmapped hoff size⟩
  | some r =>
    refine .inl ⟨r, off_of_decodeOff hd, ?_⟩
    rw [decodeRead, hd]
    cases r <;> rfl

/-- Everything the write column can give: a register's write at that register's offset, or the unmapped write where no
register is (R57, R58). -/
theorem decodeWrite_cases :
    (∃ r, off = c.off r ∧ decodeWrite c off size v = r.write size v) ∨
      (∀ r, off ≠ c.off r) ∧ decodeWrite c off size v = .wrUnmapped off size v := by
  cases hd : decodeOff c off with
  | none =>
    have hoff := ne_off_of_decodeOff_eq_none hd
    exact .inr ⟨hoff, decodeWrite_unmapped hoff size v⟩
  | some r =>
    refine .inl ⟨r, off_of_decodeOff hd, ?_⟩
    rw [decodeWrite, hd]
    cases r <;> rfl

/-- The read column gives an access with the size and the offset it was asked for. -/
theorem busAccessOf_decodeRead :
    Machine.busAccessOf c (decodeRead c off size) = some ⟨size, off, .read, none⟩ := by
  obtain ⟨r, rfl, hread⟩ | ⟨-, hread⟩ := decodeRead_cases c off size
  · rw [hread]
    cases r <;> rfl
  · rw [hread, Machine.busAccessOf]

/-- The write column gives an access with the size, the offset and the value it was asked for. -/
theorem busAccessOf_decodeWrite :
    Machine.busAccessOf c (decodeWrite c off size v) = some ⟨size, off, .write, some v⟩ := by
  obtain ⟨r, rfl, hwrite⟩ | ⟨-, hwrite⟩ := decodeWrite_cases c off size v
  · rw [hwrite]
    cases r <;> rfl
  · rw [hwrite, Machine.busAccessOf]

/-- What the read column gives is encoded at the offset it was read from. -/
theorem encode_decodeRead : encode c (decodeRead c off size) = encodeRead c off size := by
  obtain ⟨r, rfl, hread⟩ | ⟨-, hread⟩ := decodeRead_cases c off size
  · rw [hread]
    cases r <;> rfl
  · rw [hread, encode]

/-- What the write column gives is encoded at the offset it was read from. -/
theorem encode_decodeWrite : encode c (decodeWrite c off size v) = encodeWrite c off size v := by
  obtain ⟨r, rfl, hwrite⟩ | ⟨-, hwrite⟩ := decodeWrite_cases c off size v
  · rw [hwrite]
    cases r <;> rfl
  · rw [hwrite, encode]

end

/-! ## Well-formed operations (R80, R89) -/

/-- The operand check of an unmapped access: in the window, and no register's offset. -/
theorem unmapped_check_iff {c : Config} {off : Nat} :
    (decide (off < c.windowSize) && !c.isRegisterOffset off) = true ↔ off < c.windowSize ∧ ∀ r, off ≠ c.off r := by
  rw [Bool.and_eq_true, decide_eq_true_iff, Bool.not_eq_true', Config.isRegisterOffset_eq_false]

/-- In the window, the read column gives a well-formed operation. -/
theorem decodeRead_wf {c : Config} {off : Nat} (h : off < c.windowSize) (size : Nat) :
    (decodeRead c off size).wf c = true := by
  obtain ⟨r, -, hread⟩ | ⟨hoff, hread⟩ := decodeRead_cases c off size
  · rw [hread]
    cases r <;> rfl
  · rw [hread, Instr.wf, unmapped_check_iff]
    exact ⟨h, hoff⟩

/-- In the window, the write column gives a well-formed operation. -/
theorem decodeWrite_wf {c : Config} {off : Nat} (h : off < c.windowSize) (size : Nat) (v : Word) :
    (decodeWrite c off size v).wf c = true := by
  obtain ⟨r, -, hwrite⟩ | ⟨hoff, hwrite⟩ := decodeWrite_cases c off size v
  · rw [hwrite]
    cases r <;> rfl
  · rw [hwrite, Instr.wf, unmapped_check_iff]
    exact ⟨h, hoff⟩

/-- Every operation a descriptor decodes to is well formed (R80, R89). -/
theorem decode_instr_wf {c : Config} {d : Descriptor} {ops : Operands} {i : Instr}
    (h : decode c (.transaction d ops) = .instr i) : i.wf c = true := by
  obtain ⟨-, hlt, rfl⟩ | ⟨-, hlt, rfl⟩ | ⟨-, -, rfl⟩ | ⟨-, ⟨-, rfl⟩ | ⟨-, rfl⟩ | ⟨-, rfl⟩⟩ := decode_instr h
  · exact decodeRead_wf hlt _
  · exact decodeWrite_wf hlt _ _
  · rfl
  · rfl
  · rfl
  · rfl

/-! ## Descriptors written out by their fields (R59) -/

/-- The kind of a descriptor written out by its fields. -/
theorem kindOf_ofFields (extra : Nat) (k : Kind) (sel : Nat) :
    kindOf (Machine.Descriptor.ofFields extra k.bits sel) = k := kindOf_fields extra k sel

/-- The selector of a descriptor written out by its fields, where `sel` holds it. -/
theorem selOf_ofFields {extra sel : Nat} (k : BitVec 2) (h : sel < 2 ^ (6 + extra)) :
    selOf (Machine.Descriptor.ofFields extra k sel) = sel :=
  (selOf_fields extra k sel).trans (Nat.mod_eq_of_lt h)

/-- A selector of six bits is read back at every width of `sel`. -/
theorem selOf_ofFields_of_lt_64 (extra : Nat) (k : BitVec 2) {sel : Nat} (h : sel < 64) :
    selOf (Machine.Descriptor.ofFields extra k sel) = sel :=
  (selOf_fields extra k sel).trans (mod_two_pow_sel extra h)

/-! ## The four backend requests, at any width of `sel` (R62, R63) -/

section
variable (c : Config) (extra : Nat) (ops : Operands)

theorem decode_ofFields_deliver :
    decode c (.transaction (Machine.Descriptor.ofFields extra Kind.deliver.bits 0) ops) = .instr (.deliver ops.b) := by
  rw [decode_deliver c ops (kindOf_ofFields ..), if_pos (selOf_ofFields_of_lt_64 extra _ (by decide))]

theorem decode_ofFields_canAccept :
    decode c (.transaction (Machine.Descriptor.ofFields extra Kind.control.bits 0) ops) = .instr .canAccept := by
  rw [decode_control c ops (kindOf_ofFields ..), decodeControl_zero (selOf_ofFields_of_lt_64 extra _ (by decide))]

theorem decode_ofFields_backendEvent :
    decode c (.transaction (Machine.Descriptor.ofFields extra Kind.control.bits 1) ops) =
      .instr (.backendEvent ops.ev) := by
  rw [decode_control c ops (kindOf_ofFields ..), decodeControl_one (selOf_ofFields_of_lt_64 extra _ (by decide))]

theorem decode_ofFields_reconnect :
    decode c (.transaction (Machine.Descriptor.ofFields extra Kind.control.bits 2) ops) = .instr .reconnect := by
  rw [decode_control c ops (kindOf_ofFields ..), decodeControl_two (selOf_ofFields_of_lt_64 extra _ (by decide))]

end

/-! ## Descriptors that name no operation, at any width of `sel` (R66) -/

section
variable {c : Config} {extra sel : Nat} (hsel : sel < 2 ^ (6 + extra))
include hsel

theorem decode_ofFields_busRead_outside (hout : c.windowSize ≤ sel) (ops : Operands) :
    decode c (.transaction (Machine.Descriptor.ofFields extra Kind.busRead.bits sel) ops) =
      .rejected (.outsideWindow sel) := by
  rw [decode_busRead c ops (kindOf_ofFields extra .busRead sel), selOf_ofFields _ hsel, if_neg hout.not_gt]

theorem decode_ofFields_busWrite_outside (hout : c.windowSize ≤ sel) (ops : Operands) :
    decode c (.transaction (Machine.Descriptor.ofFields extra Kind.busWrite.bits sel) ops) =
      .rejected (.outsideWindow sel) := by
  rw [decode_busWrite c ops (kindOf_ofFields extra .busWrite sel), selOf_ofFields _ hsel, if_neg hout.not_gt]

theorem decode_ofFields_deliver_undefined (hne : sel ≠ 0) (ops : Operands) :
    decode c (.transaction (Machine.Descriptor.ofFields extra Kind.deliver.bits sel) ops) =
      .rejected (.undefinedDescriptor (Machine.Descriptor.ofFields extra Kind.deliver.bits sel)) := by
  rw [decode_deliver c ops (kindOf_ofFields extra .deliver sel), selOf_ofFields _ hsel, if_neg hne]

theorem decode_ofFields_control_undefined (hthree : 3 ≤ sel) (ops : Operands) :
    decode c (.transaction (Machine.Descriptor.ofFields extra Kind.control.bits sel) ops) =
      .rejected (.undefinedDescriptor (Machine.Descriptor.ofFields extra Kind.control.bits sel)) := by
  rw [decode_control c ops (kindOf_ofFields extra .control sel), decodeControl_undefined]
  rwa [selOf_ofFields _ hsel]

end

/-! ## Routing (R40 to R42) and byte lanes (R46) -/

namespace Machine

/-- Routing answers the distance from the base, inside the window alone. -/
theorem route_eq_some_iff {c : Config} {addr off : Nat} :
    route c addr = some off ↔ addr = c.base + off ∧ off < c.windowSize := by
  unfold route
  split_ifs with hin
  · rw [Option.some_inj]
    omega
  · exact iff_of_false (by simp) (by omega)

theorem route_eq_none {c : Config} {addr : Nat} (h : addr < c.base ∨ c.base + c.windowSize ≤ addr) :
    route c addr = none := if_neg (by omega)

/-- The four bytes of a word, the highest first, are the word. -/
theorem append_lanes (v : Word) :
    v.extractLsb' 24 8 ++ v.extractLsb' 16 8 ++ v.extractLsb' 8 8 ++ v.extractLsb' 0 8 = v := by
  have h16 : v.extractLsb' 24 8 ++ v.extractLsb' 16 8 = v.extractLsb' 16 16 :=
    BitVec.extractLsb'_append_extractLsb'_eq_extractLsb' rfl
  have h24 : v.extractLsb' 16 16 ++ v.extractLsb' 8 8 = v.extractLsb' 8 24 :=
    BitVec.extractLsb'_append_extractLsb'_eq_extractLsb' rfl
  have h32 : v.extractLsb' 8 24 ++ v.extractLsb' 0 8 = v.extractLsb' 0 32 :=
    BitVec.extractLsb'_append_extractLsb'_eq_extractLsb' rfl
  rw [h16, h24, h32, BitVec.extractLsb'_eq_self]

end Machine

end Sys2Proof
end

section
/-! SUPPORT. What each operation logs, answers and leaves alone, said once; that IE matters at its RXWM bit alone; and
what a list of operations and a step keep. -/

namespace Sys2Proof.Machine

/-! ## The events of an operation (R27) -/

/-- The events the body of an operation logs, in order. -/
def opEvents : Instr → State → List Event
  | .rdRxfifo _, s =>
    match s.rx with
    | _ :: rest => [.slotFreed, .drive (irq (s.setRx rest))]
    | [] => []
  | .rdUnmapped off _, _ => [.diagnostic .unmapped off .read none]
  | .wrTxfifo _ v, _ => [.txByte (lowByte v)]
  | .wrRxfifo _ v, s => [.diagnostic .undefWrite s.cfg.offRxfifo .write (some v)]
  | .wrIe _ v, s => [.drive (irq (s.setIe v))]
  | .wrIp _ v, s => [.diagnostic .undefWrite s.cfg.offIp .write (some v)]
  | .wrUnmapped off _ v, _ => [.diagnostic .unmapped off .write (some v)]
  | .deliver b, s => if s.rx.length < s.cfg.capacity then [.drive (irq (s.setRx (s.rx ++ [b])))] else [.dropWarning b]
  | .rdTxfifo _, _ | .rdTxctrl _, _ | .rdRxctrl _, _ | .rdIe _, _ | .rdIp _, _ | .rdDiv _, _
  | .wrTxctrl _ _, _ | .wrRxctrl _ _, _ | .wrDiv _ _, _ | .canAccept, _ | .backendEvent _, _ | .reconnect, _ => []

section
variable {s : State}

theorem opEvents_rdRxfifo_nil (n : Nat) (h : s.rx = []) : opEvents (.rdRxfifo n) s = [] := by
  simp only [opEvents, h]

theorem opEvents_rdRxfifo_cons (n : Nat) {b : Byte} {rest : List Byte} (h : s.rx = b :: rest) :
    opEvents (.rdRxfifo n) s = [.slotFreed, .drive (irq (s.setRx rest))] := by
  simp only [opEvents, h]

theorem opEvents_deliver_room {b : Byte} (h : s.rx.length < s.cfg.capacity) :
    opEvents (.deliver b) s = [.drive (irq (s.setRx (s.rx ++ [b])))] := if_pos h

theorem opEvents_deliver_full {b : Byte} (h : ¬ s.rx.length < s.cfg.capacity) :
    opEvents (.deliver b) s = [.dropWarning b] := if_neg h

end

@[simp] theorem raiseFault_log (k : FaultKind) (off : Nat) (dir : Direction) (value : Option Word) (s : State) :
    (raiseFault k off dir value s).log = s.log ++ [.diagnostic k off dir value] := rfl

/-- A body appends its events to the log (R27). -/
theorem opBody_log (i : Instr) (s : State) : (opBody i s).log = s.log ++ opEvents i s := by
  cases i with
  | rdRxfifo n =>
    cases hrx : s.rx with
    | nil => rw [opBody, popFront_nil hrx, opEvents_rdRxfifo_nil n hrx, State.answer_log, List.append_nil]
    | cons b rest =>
      rw [opBody, popFront_cons hrx, opEvents_rdRxfifo_cons n hrx, State.answer_log, recomputeIrq_log, State.emit_log,
        State.setRx_log, List.append_assoc]
      rfl
  | deliver b =>
    by_cases h : s.rx.length < s.cfg.capacity
    · rw [opBody, enqueue_room h, opEvents_deliver_room h, recomputeIrq_log, State.setRx_log]
    · rw [opBody, enqueue_full h, opEvents_deliver_full h, State.emit_log]
  | rdUnmapped | wrTxfifo | wrRxfifo | wrIe | wrIp | wrUnmapped => rfl
  | _ => exact (List.append_nil _).symm

/-- Everything an operation can log: one diagnostic where the size check fails, and else the events of its body. -/
theorem exec_log {i : Instr} {s t : State} (h : exec i s = .next t) :
    ((∀ a, busAccessOf s.cfg i = some a → a.size = 4) ∧ t.log = s.log ++ opEvents i s) ∨
      ∃ a, busAccessOf s.cfg i = some a ∧ a.size ≠ 4 ∧
        t.log = s.log ++ [.diagnostic .width a.off a.dir a.value] := by
  obtain ⟨-, ⟨hsize, rfl⟩ | ⟨a, ha, hsize, rfl⟩⟩ := exec_next h
  · exact .inl ⟨hsize, opBody_log i s⟩
  · exact .inr ⟨a, ha, hsize, rfl⟩

/-- An operation logs at most two events. -/
theorem opEvents_length_le (i : Instr) (s : State) : (opEvents i s).length ≤ 2 := by
  cases i with
  | rdRxfifo n =>
    cases hrx : s.rx with
    | nil => simp [opEvents_rdRxfifo_nil n hrx]
    | cons b rest => simp [opEvents_rdRxfifo_cons n hrx]
  | deliver b =>
    by_cases h : s.rx.length < s.cfg.capacity
    · simp [opEvents_deliver_room h]
    · simp [opEvents_deliver_full h]
  | _ => simp [opEvents]

/-! ## Faults (R102 to R105) -/

/-- A live access of another size raises F_WIDTH, whatever the operation (R103, R107). -/
theorem exec_wrong_size {i : Instr} {s : State} {a : BusAccess} (hf : s.faulted = false)
    (ha : busAccessOf s.cfg i = some a) (hsize : a.size ≠ 4) :
    exec i s = .next (raiseFault .width a.off a.dir a.value s) := by
  rw [exec_eq_whenLive, whenLive_live hf, ha, sizeChecked, if_neg hsize]

/-- In a faulted state no operation takes a step (R106). -/
theorem exec_faulted {s : State} (h : s.faulted = true) (i : Instr) : exec i s = .fault .deviceFaulted := by
  rw [exec_eq_whenLive, whenLive_faulted h]

/-- In a live state every operation answers a next state (R12). -/
theorem exec_live {s : State} (h : s.faulted = false) (i : Instr) : ∃ t, exec i s = .next t :=
  ⟨_, by rw [exec_eq_whenLive, whenLive_live h]⟩

/-- The bodies that raise a fault: an unmapped access, and a write to RXFIFO or IP (R104, R105). -/
theorem opBody_faulted_iff {s : State} (hf : s.faulted = false) (i : Instr) :
    (opBody i s).faulted = true ↔
      (∃ off n, i = .rdUnmapped off n) ∨ (∃ off n v, i = .wrUnmapped off n v) ∨ (∃ n v, i = .wrRxfifo n v) ∨
        ∃ n v, i = .wrIp n v := by
  cases i with
  | rdUnmapped | wrUnmapped | wrRxfifo | wrIp => exact iff_of_true rfl (by simp)
  | rdRxfifo => simp [opBody, hf]
  | deliver b => simp [opBody, hf]
  | _ => exact iff_of_false (by simpa [opBody] using hf) (by simp)

/-- A body raises a fault exactly when one diagnostic is all it logs (R102). -/
theorem opBody_faulted_iff_diagnostic {s : State} (hf : s.faulted = false) (i : Instr) :
    (opBody i s).faulted = true ↔ ∃ k off dir value, opEvents i s = [.diagnostic k off dir value] := by
  cases i with
  | rdUnmapped | wrUnmapped | wrRxfifo | wrIp => exact iff_of_true rfl ⟨_, _, _, _, rfl⟩
  | rdRxfifo n =>
    cases hrx : s.rx with
    | nil => simp [opBody, hf, opEvents_rdRxfifo_nil n hrx]
    | cons b rest => simp [opBody, hf, opEvents_rdRxfifo_cons n hrx]
  | deliver b =>
    by_cases h : s.rx.length < s.cfg.capacity
    · simp [opBody, hf, opEvents_deliver_room h]
    · simp [opBody, hf, opEvents_deliver_full h]
  | _ => exact iff_of_false (by simpa [opBody] using hf) (by simp [opEvents])

/-! ## Answers and pending requests (R12, R81) -/

@[simp] theorem raiseFault_requests (k : FaultKind) (off : Nat) (dir : Direction) (value : Option Word) (s : State) :
    (raiseFault k off dir value s).requests = s.requests := rfl

@[simp] theorem recomputeIrq_requests (s : State) : (recomputeIrq s).requests = s.requests := rfl

/-- No body takes or adds a request. -/
@[simp] theorem opBody_requests (i : Instr) (s : State) : (opBody i s).requests = s.requests := by
  cases i with
  | rdRxfifo =>
    cases hrx : s.rx with
    | nil => simp [opBody, popFront_nil hrx]
    | cons b rest => simp [opBody, popFront_cons hrx]
  | deliver b =>
    by_cases h : s.rx.length < s.cfg.capacity
    · simp [opBody, enqueue_room h]
    · simp [opBody, enqueue_full h]
  | _ => rfl

/-- No operation takes or adds a request. -/
theorem exec_requests {i : Instr} {s t : State} (h : exec i s = .next t) : t.requests = s.requests := by
  obtain ⟨-, ⟨-, rfl⟩ | ⟨a, -, -, rfl⟩⟩ := exec_next h
  · exact opBody_requests i s
  · exact raiseFault_requests ..

/-- A body answers nothing, or one value after those already answered (R81). -/
theorem opBody_answers (i : Instr) (s : State) :
    (opBody i s).answers = s.answers ∨ ∃ a, (opBody i s).answers = s.answers ++ [a] := by
  cases i with
  | rdTxfifo | rdTxctrl | rdRxctrl | rdIe | rdIp | rdDiv | canAccept | reconnect => exact .inr ⟨_, rfl⟩
  | rdRxfifo =>
    cases hrx : s.rx with
    | nil => exact .inr ⟨_, by rw [opBody, popFront_nil hrx, State.answer_answers]⟩
    | cons b rest => exact .inr ⟨_, by rw [opBody, popFront_cons hrx, State.answer_answers]; rfl⟩
  | deliver b =>
    by_cases h : s.rx.length < s.cfg.capacity
    · exact .inl (by simp [opBody, enqueue_room h])
    · exact .inl (by simp [opBody, enqueue_full h])
  | _ => exact .inl rfl

/-- An operation answers nothing, or one value after those already answered (R81). -/
theorem exec_answers {i : Instr} {s t : State} (h : exec i s = .next t) :
    t.answers = s.answers ∨ ∃ a, t.answers = s.answers ++ [a] := by
  obtain ⟨-, ⟨-, rfl⟩ | ⟨a, -, -, rfl⟩⟩ := exec_next h
  · exact opBody_answers i s
  · exact .inl rfl

/-- An operation that passed the size check and answers a next state ran its body (R107). -/
theorem eq_opBody_of_exec {i : Instr} {s t : State} (h : exec i s = .next t)
    (hsize : ∀ a, busAccessOf s.cfg i = some a → a.size = 4) : t = opBody i s := by
  obtain ⟨-, ⟨-, ht⟩ | ⟨a, ha, hne, -⟩⟩ := exec_next h
  · exact ht
  · exact absurd (hsize a ha) hne

/-- A `can_accept` that answers a next state answered `rxReady` and did nothing else (R92). -/
theorem eq_answer_of_exec_canAccept {s t : State} (h : exec .canAccept s = .next t) :
    t = s.answer (.accept (rxReady s)) := eq_opBody_of_exec h (by simp [busAccessOf])

/-- A 4-byte IP read that answers a next state answered `ip` and did nothing else (R76). -/
theorem eq_answer_of_exec_rdIp {s t : State} (h : exec (.rdIp 4) s = .next t) : t = s.answer (.data (ip s)) :=
  eq_opBody_of_exec h (by simp [busAccessOf])

/-- The gate is open exactly while there is room (R93). -/
theorem rxReady_eq_true_iff {s : State} : rxReady s = true ↔ s.rx.length < s.cfg.capacity := decide_eq_true_iff

/-- The pending bit is set only over a non-empty buffer (R25). -/
theorem rx_ne_nil_of_ip_getLsbD {s : State} {k : Nat} (h : (ip s).getLsbD k = true) : s.rx ≠ [] := by
  intro hrx
  simp [ip, hrx] at h

/-! ## The drive points (R109) -/

/-- The operations that drive the line, in the states where they do: a 4-byte IE write, a 4-byte RXFIFO read of a
non-empty buffer, and a delivery with room. -/
def DrivesLine (i : Instr) (s : State) : Prop :=
  (∃ v, i = .wrIe 4 v) ∨ (i = .rdRxfifo 4 ∧ s.rx ≠ []) ∨ ∃ b, i = .deliver b ∧ s.rx.length < s.cfg.capacity

/-- A bus access that drives the line is one of size 4. -/
theorem DrivesLine.size_eq {i : Instr} {s : State} {a : BusAccess} (h : DrivesLine i s)
    (ha : busAccessOf s.cfg i = some a) : a.size = 4 := by
  obtain ⟨v, rfl⟩ | ⟨rfl, -⟩ | ⟨b, rfl, -⟩ := h
  · cases ha
    rfl
  · cases ha
    rfl
  · cases ha

/-- At a drive point the drive is the last event, of the condition of the state after the operation (R109). -/
theorem DrivesLine.opEvents_eq {i : Instr} {s : State} (h : DrivesLine i s) :
    ∃ before, opEvents i s = before ++ [.drive (irq (opBody i s))] ∧ ∀ e ∈ before, e.isDrive = false := by
  obtain ⟨v, rfl⟩ | ⟨rfl, hne⟩ | ⟨b, rfl, hroom⟩ := h
  · exact ⟨[], rfl, by simp⟩
  · obtain ⟨b, rest, hrx⟩ := List.exists_cons_of_ne_nil hne
    exact ⟨[.slotFreed], by rw [opEvents_rdRxfifo_cons 4 hrx, opBody, popFront_cons hrx]; rfl, by simp [Event.isDrive]⟩
  · exact ⟨[], by rw [opEvents_deliver_room hroom, opBody, enqueue_room hroom]; rfl, by simp⟩

/-- Away from the drive points a body drives nothing, and leaves IE and the buffer alone (R109). -/
theorem opBody_of_not_drivesLine {i : Instr} {s : State} (h : ¬ DrivesLine i s)
    (hsize : ∀ a, busAccessOf s.cfg i = some a → a.size = 4) :
    (∀ e ∈ opEvents i s, e.isDrive = false) ∧ (opBody i s).ie = s.ie ∧ (opBody i s).rx = s.rx := by
  cases i with
  | wrIe n v =>
    obtain rfl : n = 4 := hsize _ rfl
    exact absurd (.inl ⟨v, rfl⟩) h
  | rdRxfifo n =>
    obtain rfl : n = 4 := hsize _ rfl
    have hrx : s.rx = [] := by_contra fun hne => h (.inr (.inl ⟨rfl, hne⟩))
    rw [opEvents_rdRxfifo_nil 4 hrx, opBody, popFront_nil hrx]
    exact ⟨by simp, rfl, rfl⟩
  | deliver b =>
    have hfull : ¬ s.rx.length < s.cfg.capacity := fun hroom => h (.inr (.inr ⟨b, rfl, hroom⟩))
    rw [opEvents_deliver_full hfull, opBody, enqueue_full hfull]
    exact ⟨by simp [Event.isDrive], rfl, rfl⟩
  | _ => exact ⟨by simp [opEvents, Event.isDrive], rfl, rfl⟩

theorem levelAfter_of_not_isDrive {e : Event} (h : e.isDrive = false) (level : Bool) : levelAfter level e = level := by
  cases e with
  | drive => cases h
  | _ => rfl

theorem foldl_levelAfter_of_no_drive {evs : List Event} (h : ∀ e ∈ evs, e.isDrive = false) (level : Bool) :
    evs.foldl levelAfter level = level := by
  induction evs with
  | nil => rfl
  | cons e evs ih =>
    obtain ⟨he, hevs⟩ := List.forall_mem_cons.mp h
    rw [List.foldl_cons, levelAfter_of_not_isDrive he, ih hevs]

/-- Events without a drive leave the line where it is (I3 of R32). -/
theorem State.line_of_no_drive {s t : State} {evs : List Event} (h : t.log = s.log ++ evs)
    (hevs : ∀ e ∈ evs, e.isDrive = false) : t.line = s.line := by
  rw [State.line, State.line, h, List.foldl_append, foldl_levelAfter_of_no_drive hevs]

/-! ## The RXWM bit of IE (R20, R112) -/

section
variable {s : State} {v : Word} (h : v.getLsbD s.cfg.rxwmPos.val = s.ie.getLsbD s.cfg.rxwmPos.val)
include h

/-- Only the RXWM bit of IE enters the interrupt condition (R24). -/
theorem irq_setIe_of_rxwm_eq : irq (s.setIe v) = irq s := by
  simp only [irq_eq_decide_getLsbD, State.setIe_cfg, State.setIe_ie, State.setIe_rx, h]

theorem recomputeIrq_setIe_of_rxwm_eq : recomputeIrq (s.setIe v) = (recomputeIrq s).setIe v := by
  rw [recomputeIrq, irq_setIe_of_rxwm_eq h]
  rfl

theorem popFront_setIe_of_rxwm_eq : popFront (s.setIe v) = (popFront s).setIe v := by
  cases hrx : s.rx with
  | nil =>
    rw [popFront_nil hrx, popFront_nil (by simpa using hrx)]
    rfl
  | cons b rest =>
    have hrec : recomputeIrq (((s.setRx rest).emit .slotFreed).setIe v) = _ := recomputeIrq_setIe_of_rxwm_eq h
    rw [popFront_cons hrx, popFront_cons (s := s.setIe v) (by simpa using hrx)]
    exact congrArg (State.answer · _) hrec

theorem enqueue_setIe_of_rxwm_eq (b : Byte) : enqueue b (s.setIe v) = (enqueue b s).setIe v := by
  by_cases hroom : s.rx.length < s.cfg.capacity
  · have hrec : recomputeIrq ((s.setRx (s.rx ++ [b])).setIe v) = _ := recomputeIrq_setIe_of_rxwm_eq h
    rw [enqueue_room hroom, enqueue_room (s := s.setIe v) hroom]
    exact hrec
  · rw [enqueue_full hroom, enqueue_full (s := s.setIe v) hroom]
    rfl

/-- No body but IE's own read depends on more of IE than its RXWM bit: the results agree outside IE. -/
theorem opBody_setIe_of_rxwm_eq {i : Instr} (hi : ∀ n, i ≠ .rdIe n) :
    (opBody i (s.setIe v)).setIe 0 = (opBody i s).setIe 0 := by
  cases i with
  | rdIe n => exact absurd rfl (hi n)
  | rdRxfifo =>
    rw [opBody, opBody, popFront_setIe_of_rxwm_eq h]
    rfl
  | deliver b =>
    rw [opBody, opBody, enqueue_setIe_of_rxwm_eq h]
    rfl
  | _ => rfl

/-- What IE holds outside its RXWM bit changes no operation but IE's own read (R20, R112). -/
theorem exec_setIe_of_rxwm_eq {i : Instr} (hi : ∀ n, i ≠ .rdIe n) :
    mapNext (·.setIe 0) (exec i (s.setIe v)) = mapNext (·.setIe 0) (exec i s) := by
  have hbody := opBody_setIe_of_rxwm_eq h hi
  rw [exec_eq_whenLive, exec_eq_whenLive, State.setIe_cfg]
  refine mapNext_whenLive_congr rfl ?_
  cases busAccessOf s.cfg i with
  | none => exact hbody
  | some a =>
    by_cases hsize : a.size = 4
    · simpa only [sizeChecked, if_pos hsize] using hbody
    · simp only [sizeChecked, if_neg hsize]
      rfl

end

/-! ## The registers that store a value (I4 of R32) -/

theorem stored_setRequests (s : State) (rs : List Request) (r : Role) : stored (s.setRequests rs) r = stored s r := by
  cases r <;> rfl

theorem stored_raiseFault (k : FaultKind) (off : Nat) (dir : Direction) (value : Option Word) (s : State) (r : Role) :
    stored (raiseFault k off dir value s) r = stored s r := by
  cases r <;> rfl

theorem stored_popFront (s : State) (r : Role) : stored (popFront s) r = stored s r := by
  cases hrx : s.rx with
  | nil =>
    rw [popFront_nil hrx]
    cases r <;> rfl
  | cons b rest =>
    rw [popFront_cons hrx]
    cases r <;> rfl

theorem stored_enqueue (b : Byte) (s : State) (r : Role) : stored (enqueue b s) r = stored s r := by
  by_cases h : s.rx.length < s.cfg.capacity
  · rw [enqueue_room h]
    cases r <;> rfl
  · rw [enqueue_full h]
    cases r <;> rfl

/-- Only a 4-byte access writes a stored register (R83 to R86). -/
theorem Transition.writes_eq_none_of_size {i : Instr} {c : Config} {a : BusAccess} (ha : busAccessOf c i = some a)
    (hsize : a.size ≠ 4) (r : Role) (before after : State) : Transition.writes r ⟨i, before, after⟩ = none := by
  cases i with
  | wrIe n v | wrTxctrl n v | wrRxctrl n v | wrDiv n v =>
    cases ha
    cases r with
    | ie | txctrl | rxctrl | div => simp [Transition.writes, hsize]
    | _ => rfl
  | _ => cases r <;> rfl

/-- A body that passed the size check leaves in a stored register what the operation writes to it, or what was there. -/
theorem stored_opBody {i : Instr} {s : State} (hsize : ∀ a, busAccessOf s.cfg i = some a → a.size = 4) (r : Role)
    (before after : State) :
    stored (opBody i s) r = (stored s r).map fun v => (Transition.writes r ⟨i, before, after⟩).getD v := by
  cases i with
  | rdRxfifo => exact (stored_popFront s r).trans (by cases r <;> rfl)
  | deliver b => exact (stored_enqueue b s r).trans (by cases r <;> rfl)
  | wrIe n v | wrTxctrl n v | wrRxctrl n v | wrDiv n v =>
    obtain rfl : n = 4 := hsize _ rfl
    cases r <;> rfl
  | _ => cases r <;> rfl

/-- A completed step leaves in a stored register what it writes to it, or what was there (I4 of R32). -/
theorem exec_stored {i : Instr} {s t : State} {rest : List Request} (h : exec i (s.setRequests rest) = .next t)
    (r : Role) : stored t r = (stored s r).map fun v => (Transition.writes r ⟨i, s, t⟩).getD v := by
  rw [← stored_setRequests s rest r]
  obtain ⟨-, ⟨hsize, rfl⟩ | ⟨a, ha, hsize, rfl⟩⟩ := exec_next h
  · exact stored_opBody hsize r _ _
  · simp only [stored_raiseFault, Transition.writes_eq_none_of_size ha hsize, Option.getD_none, Option.map_id']

/-- After a run every stored register holds its last written value, or what it held before (I4 of R32). -/
def HoldsLastWrites (tr : List Transition) (s : State) : Prop :=
  ∀ r, stored (traceEnd tr s) r = (stored s r).map fun v => (tr.filterMap (Transition.writes r)).getLast?.getD v

theorem holdsLastWrites_nil (s : State) : HoldsLastWrites [] s := by
  simp [HoldsLastWrites]

/-- The last write of a step and a run is the run's, or the step's where the run has none. -/
theorem holdsLastWrites_cons {x : Transition} {tr : List Transition}
    (hx : ∀ r, stored x.after r = (stored x.before r).map fun v => (x.writes r).getD v)
    (htr : HoldsLastWrites tr x.after) : HoldsLastWrites (x :: tr) x.before := by
  intro r
  rw [traceEnd_cons, htr, hx, Option.map_map]
  congr 1
  funext v
  cases hw : x.writes r with
  | none => simp [List.filterMap_cons_none hw]
  | some w => simp [List.filterMap_cons_some hw, List.getLast?_cons]

/-! ## The bytes sent (R82, R133) -/

@[simp] theorem sentBytes_append (log log' : List Event) : sentBytes (log ++ log') = sentBytes log ++ sentBytes log' :=
  List.filterMap_append

/-- Only a 4-byte TXFIFO write is asked to send a byte (R82). -/
theorem Transition.toSend_eq_none_of_size {i : Instr} {c : Config} {a : BusAccess} (ha : busAccessOf c i = some a)
    (hsize : a.size ≠ 4) (before after : State) : Transition.toSend ⟨i, before, after⟩ = none := by
  cases i with
  | wrTxfifo n v =>
    cases ha
    simp [Transition.toSend, hsize]
  | _ => rfl

/-- Past the size check the bytes sent are the one the operation is asked to send, if any. -/
theorem sentBytes_opEvents {i : Instr} {s : State} (hsize : ∀ a, busAccessOf s.cfg i = some a → a.size = 4)
    (before after : State) : sentBytes (opEvents i s) = (Transition.toSend ⟨i, before, after⟩).toList := by
  cases i with
  | wrTxfifo n v =>
    obtain rfl : n = 4 := hsize _ rfl
    rfl
  | rdRxfifo n =>
    cases hrx : s.rx with
    | nil => rw [opEvents_rdRxfifo_nil n hrx]; rfl
    | cons b rest => rw [opEvents_rdRxfifo_cons n hrx]; rfl
  | deliver b =>
    by_cases h : s.rx.length < s.cfg.capacity
    · rw [opEvents_deliver_room h]; rfl
    · rw [opEvents_deliver_full h]; rfl
  | _ => rfl

/-- A completed step sends the byte it is asked to send, and no other (R82). -/
theorem exec_sentBytes {i : Instr} {s t : State} {rest : List Request} (h : exec i (s.setRequests rest) = .next t) :
    sentBytes t.log = sentBytes s.log ++ (Transition.toSend ⟨i, s, t⟩).toList := by
  obtain ⟨hsize, hlog⟩ | ⟨a, ha, hsize, hlog⟩ := exec_log h
  · rw [hlog, sentBytes_append, sentBytes_opEvents hsize s t, State.setRequests_log]
  · rw [hlog, sentBytes_append, Transition.toSend_eq_none_of_size ha hsize, State.setRequests_log]
    rfl

/-- The bytes sent over a run are those before it, then the ones its steps are asked to send (R133). -/
def SendsItsWrites (tr : List Transition) (s : State) : Prop :=
  sentBytes (traceEnd tr s).log = sentBytes s.log ++ tr.filterMap Transition.toSend

theorem sendsItsWrites_nil (s : State) : SendsItsWrites [] s := by
  simp [SendsItsWrites]

theorem sendsItsWrites_cons {x : Transition} {tr : List Transition}
    (hx : sentBytes x.after.log = sentBytes x.before.log ++ x.toSend.toList) (htr : SendsItsWrites tr x.after) :
    SendsItsWrites (x :: tr) x.before := by
  simp only [SendsItsWrites, List.filterMap_eq_flatMap_toList, List.flatMap_cons, traceEnd_cons] at *
  rw [htr, hx, List.append_assoc]

/-! ## One step (R12, R66, R107) -/

section
variable {s : State}

theorem step_faulted (h : s.faulted = true) : step s = .fault .deviceFaulted := if_pos h

theorem step_badConfiguration (hf : s.faulted = false) (hv : ¬ s.cfg.Valid) : step s = .refused .badConfiguration := by
  rw [step, if_neg (by simp [hf]), if_neg hv]

section
variable (hf : s.faulted = false) (hv : s.cfg.Valid)
include hf hv

theorem step_idle (hreq : s.requests = []) : step s = .next s := by
  simp only [step, hf, Bool.false_eq_true, if_false, if_pos hv, takeRequest, hreq, idle]

theorem step_instr {r : Request} {rest : List Request} {i : Instr} (hreq : s.requests = r :: rest)
    (hdec : decode s.cfg r = .instr i) : step s = exec i (s.setRequests rest) := by
  simp only [step, hf, Bool.false_eq_true, if_false, if_pos hv, takeRequest, hreq, hdec]

theorem step_rejected {r : Request} {rest : List Request} {why : Rejection} (hreq : s.requests = r :: rest)
    (hdec : decode s.cfg r = .rejected why) : step s = .refused (refusalOf why) := by
  simp only [step, hf, Bool.false_eq_true, if_false, if_pos hv, takeRequest, hreq, hdec]

end

end

/-! ## The invariant (I1 and I3 of R32) -/

/-- A delivery keeps the buffer within its capacity (I1). -/
theorem enqueue_length_le {s : State} (b : Byte) (h : s.rx.length ≤ s.cfg.capacity) :
    (enqueue b s).rx.length ≤ s.cfg.capacity := by
  by_cases hroom : s.rx.length < s.cfg.capacity
  · simpa [enqueue_room hroom] using hroom
  · simpa [enqueue_full hroom] using h

/-- Every operation keeps the buffer within its capacity (I1). -/
theorem exec_length_le {i : Instr} {s t : State} (hle : s.rx.length ≤ s.cfg.capacity) (h : exec i s = .next t) :
    t.rx.length ≤ s.cfg.capacity := by
  obtain hrx | ⟨b, rfl, -⟩ | ⟨-, b, hrx⟩ := bufferChangesOnlyAtItsEnds i s t h
  · rwa [hrx]
  · rw [eq_enqueue_of_exec_deliver h]
    exact enqueue_length_le b hle
  · rw [hrx, List.length_cons] at hle
    omega

/-- Every operation keeps the invariant. -/
theorem exec_inv {i : Instr} {s t : State} (hs : Inv s) (h : exec i s = .next t) : Inv t := by
  obtain ⟨hvalid, hle, hline⟩ := hs
  have hcfg := exec_cfg h
  exact ⟨hcfg ▸ hvalid, hcfg ▸ exec_length_le hle h, exec_line_eq_irq hline h⟩

/-- Requests do not enter the invariant. -/
theorem Inv.setRequests {s : State} (h : Inv s) (rs : List Request) : Inv (s.setRequests rs) := h

/-- Every step keeps the invariant. -/
theorem step_inv {s t : State} (hs : Inv s) (h : step s = .next t) : Inv t := by
  obtain ⟨-, -, ⟨-, rfl⟩ | ⟨r, rest, i, -, -, hexec⟩⟩ := step_next h
  · exact hs
  · exact exec_inv (hs.setRequests rest) hexec

/-- The state at instantiation meets the invariant: an empty buffer, and a line no event has driven. -/
theorem inv_initial {c : Config} (h : c.Valid) : Inv (State.initial c) :=
  ⟨h, Nat.zero_le _, by simp [irq, State.line, State.initial]⟩

theorem valid_thisHardware : Config.thisHardware.Valid := by decide

/-- Every reachable state meets the invariant. -/
theorem reachable_inv {s : State} (h : Reachable s) : Inv s := by
  induction h with
  | initial c valid => exact inv_initial valid
  | stepped s t _ ran ih => exact step_inv ih ran
  | arrive s rs _ ih => exact ih.setRequests rs

/-! ## Lists of operations -/

theorem execAll_cons {i : Instr} {is : List Instr} {s t : State} (h : exec i s = .next t) :
    execAll (i :: is) s = execAll is t := by
  rw [execAll, h]

/-- A list of operations that answers a next state ran its first operation, then the others. -/
theorem execAll_cons_next {i : Instr} {is : List Instr} {s u : State} (h : execAll (i :: is) s = .next u) :
    ∃ t, exec i s = .next t ∧ execAll is t = .next u := by
  rw [execAll] at h
  cases hexec : exec i s with
  | next t => exact ⟨t, rfl, by rwa [hexec] at h⟩
  | fault | refused =>
    rw [hexec] at h
    cases h

/-- What each operation of a list keeps, the whole list keeps. -/
theorem execAll_keeps {P : State → Prop} {is : List Instr}
    (keeps : ∀ i ∈ is, ∀ s t, P s → exec i s = .next t → P t) {s t : State} (hs : P s)
    (h : execAll is s = .next t) : P t := by
  induction is generalizing s with
  | nil =>
    cases h
    exact hs
  | cons i is ih =>
    obtain ⟨u, hexec, hrest⟩ := execAll_cons_next h
    obtain ⟨hi, his⟩ := List.forall_mem_cons.mp keeps
    exact ih his (hi s u hs hexec) hrest

/-- Deliveries fill the buffer up to its capacity, and each later one logs its warning and no other event than drives
(R94, R95). -/
theorem execAll_deliver (bs : List Byte) {s : State} (hf : s.faulted = false) (hle : s.rx.length ≤ s.cfg.capacity) :
    ∃ evs, execAll (bs.map .deliver) s = .next { s with
        rx := s.rx ++ bs.take (s.cfg.capacity - s.rx.length)
        log := s.log ++ evs } ∧
      evs.filter (fun e => !e.isDrive) = (bs.drop (s.cfg.capacity - s.rx.length)).map .dropWarning := by
  induction bs generalizing s with
  | nil => exact ⟨[], by simp [execAll], by simp⟩
  | cons b bs ih =>
    have hexec : exec (.deliver b) s = .next (enqueue b s) := exec_backend hf rfl
    have hle' : (enqueue b s).rx.length ≤ (enqueue b s).cfg.capacity := by simpa using enqueue_length_le b hle
    obtain ⟨evs, hrun, hevs⟩ := ih (by simpa using hf) hle'
    rw [List.map_cons, execAll_cons hexec, hrun]
    by_cases hroom : s.rx.length < s.cfg.capacity
    · obtain ⟨n, hn⟩ : ∃ n, s.cfg.capacity - s.rx.length = n + 1 := ⟨s.cfg.capacity - s.rx.length - 1, by omega⟩
      have hn' : s.cfg.capacity - (s.rx ++ [b]).length = n := by
        rw [List.length_append, List.length_singleton]
        omega
      rw [enqueue_room_eq hroom] at hevs ⊢
      simp only [hn'] at hevs
      refine ⟨.drive (decide (s.ie &&& (1#32 <<< s.cfg.rxwmPos.val) ≠ 0)) :: evs, ?_, ?_⟩
      · simp only [hn, hn', List.take_succ_cons, List.append_assoc, List.singleton_append]
      · simpa [hn, Event.isDrive] using hevs
    · have hzero : s.cfg.capacity - s.rx.length = 0 := by omega
      rw [enqueue_full_eq hroom] at hevs ⊢
      refine ⟨.dropWarning b :: evs, ?_, ?_⟩
      · simp only [hzero, List.take_zero, List.append_assoc, List.singleton_append]
      · simpa [hzero, Event.isDrive] using hevs

/-- As many reads as there are bytes empty the buffer and answer its bytes in order (R73). -/
theorem execAll_drain (bytes : List Byte) {s : State} (hf : s.faulted = false) (hrx : s.rx = bytes) :
    ∃ evs, execAll (List.replicate bytes.length (.rdRxfifo 4)) s = .next { s with
        rx := []
        log := s.log ++ evs
        answers := s.answers ++ bytes.map fun b => .data (b.setWidth 32) } := by
  induction bytes generalizing s with
  | nil =>
    exact ⟨[], by
      rw [List.length_nil, List.replicate_zero, execAll, List.append_nil, List.map_nil, List.append_nil, ← hrx]⟩
  | cons b rest ih =>
    have hexec : exec (.rdRxfifo 4) s = .next (popFront s) := exec_four hf rfl rfl
    obtain ⟨evs, hrun⟩ := ih (s := popFront s) (by simpa using hf) (by simp [popFront_cons hrx])
    rw [List.length_cons, List.replicate_succ, execAll_cons hexec, hrun, popFront_cons_eq hrx]
    exact ⟨_, by simp only [List.append_assoc, List.map_cons, List.singleton_append, zext32]; rfl⟩

/-- Only an RXFIFO read can empty the buffer (R18). -/
theorem exec_rx_ne_nil {i : Instr} {s t : State} (hi : ∀ n, i ≠ .rdRxfifo n) (hs : s.rx ≠ [])
    (h : exec i s = .next t) : t.rx ≠ [] := by
  obtain hrx | ⟨b, -, hrx⟩ | ⟨hread, -⟩ := bufferChangesOnlyAtItsEnds i s t h
  · rwa [hrx]
  · simp [hrx]
  · exact absurd hread (hi 4)

end Sys2Proof.Machine
end

section
/-! The statements of the family other. -/

open Sys2Proof Sys2Proof.Machine

/-- Settles O34: the invariant is kept by the idle step, by taking a request and by every operation. -/
theorem stepKeepsInvariant : Obligations.StepKeepsInvariant := fun _ _ => step_inv

/-- Settles O47: an access in the window decodes to the register's operation at a register's offset and to the unmapped
access elsewhere; the four backend selectors fit every width of `sel`. -/
theorem decodeOfEncode : Obligations.DecodeOfEncode := by
  intro c i hv hwf
  cases i with
  | rdTxfifo n => exact decode_encodeRead_off hv .txfifo n
  | rdRxfifo n => exact decode_encodeRead_off hv .rxfifo n
  | rdTxctrl n => exact decode_encodeRead_off hv .txctrl n
  | rdRxctrl n => exact decode_encodeRead_off hv .rxctrl n
  | rdIe n => exact decode_encodeRead_off hv .ie n
  | rdIp n => exact decode_encodeRead_off hv .ip n
  | rdDiv n => exact decode_encodeRead_off hv .div n
  | wrTxfifo n v => exact decode_encodeWrite_off hv .txfifo n v
  | wrRxfifo n v => exact decode_encodeWrite_off hv .rxfifo n v
  | wrTxctrl n v => exact decode_encodeWrite_off hv .txctrl n v
  | wrRxctrl n v => exact decode_encodeWrite_off hv .rxctrl n v
  | wrIe n v => exact decode_encodeWrite_off hv .ie n v
  | wrIp n v => exact decode_encodeWrite_off hv .ip n v
  | wrDiv n v => exact decode_encodeWrite_off hv .div n v
  | rdUnmapped off n =>
    obtain ⟨hlt, hoff⟩ := unmapped_check_iff.mp hwf
    rw [encode, decode_encodeRead hlt, decodeRead_unmapped hoff]
  | wrUnmapped off n v =>
    obtain ⟨hlt, hoff⟩ := unmapped_check_iff.mp hwf
    rw [encode, decode_encodeWrite hlt, decodeWrite_unmapped hoff]
  | deliver => exact decode_ofFields_deliver c c.selExtra _
  | canAccept => exact decode_ofFields_canAccept c c.selExtra _
  | backendEvent => exact decode_ofFields_backendEvent c c.selExtra _
  | reconnect => exact decode_ofFields_reconnect c c.selExtra _

/-- Settles O12: past the live check, the size check comes before the body of every bus access. -/
theorem wrongSizeFaults : Obligations.WrongSizeFaults := fun _ _ _ hf ha hsize => exec_wrong_size hf ha hsize

/-- Settles O14: `step` and every operation check the fault flag first. -/
theorem faultedTakesNoStep : Obligations.FaultedTakesNoStep := fun _ h => ⟨step_faulted h, exec_faulted h⟩

/-- Settles O15: the empty run ends in the faulted state itself, and a longer run stops at its first step. -/
theorem noSuccessAfterFault : Obligations.NoSuccessAfterFault := by
  rintro k s t hs ⟨hrun, ht⟩
  cases k with
  | zero =>
    cases hrun
    simp [hs] at ht
  | succ k =>
    have hstep : core.step s = .fault .deviceFaulted := step_faulted hs
    simp [Host.Core.run, hstep] at hrun

/-- Settles O16: in a live state an operation is F_WIDTH where the size check fails, and else its body, which raises a
fault in those four operations alone. -/
theorem onlyProtocolViolationsFault : Obligations.OnlyProtocolViolationsFault := by
  intro i s hf
  obtain ⟨t, ht⟩ := exec_live hf i
  refine ⟨t, ht, ?_⟩
  obtain ⟨-, ⟨hsize, rfl⟩ | ⟨a, ha, hsize, rfl⟩⟩ := exec_next ht
  · have hno : ¬ ∃ a, busAccessOf s.cfg i = some a ∧ a.size ≠ 4 := fun ⟨a, ha, hne⟩ => hne (hsize a ha)
    rw [or_iff_right hno, opBody_faulted_iff hf]
  · exact iff_of_true rfl (.inl ⟨a, ha, hsize⟩)

/-- Settles O21: `can_accept` answers whether there is room and leaves the buffer; a delivery with room is appended
and logs a drive alone; a read of a full buffer, which has at least one byte, makes room. -/
theorem gateNeverDrops : Obligations.GateNeverDrops := by
  refine ⟨fun s t u b hask hyes hdel => ?_, fun s t u hv hfull hread hask => ?_⟩
  · obtain rfl := eq_answer_of_exec_canAccept hask
    have hroom : s.rx.length < s.cfg.capacity := rxReady_eq_true_iff.mp (by simpa using hyes)
    obtain rfl := eq_enqueue_of_exec_deliver hdel
    rw [enqueue_room_eq (s := s.answer _) hroom]
    exact ⟨rfl, by simp⟩
  · obtain rfl := eq_popFront_of_exec_rdRxfifo hread
    obtain rfl := eq_answer_of_exec_canAccept hask
    obtain ⟨b, rest, hrx⟩ := List.exists_cons_of_length_pos (hfull ▸ hv.capacity_pos)
    have hready : rxReady (popFront s) = true := by
      rw [rxReady_eq_true_iff, popFront_cfg, ← hfull, popFront_cons_eq hrx, hrx]
      exact Nat.lt_succ_self _
    rw [State.answer_answers, hready]

/-- Settles O24, by induction over the deliveries: while there is room each takes one slot, afterwards each is one
warning. -/
theorem deliveriesFillThenDrop : Obligations.DeliveriesFillThenDrop := by
  intro bs s hf hle
  obtain ⟨evs, hrun, hevs⟩ := execAll_deliver bs hf hle
  exact ⟨_, hrun, rfl, by simpa using hevs, by simp, rfl⟩

/-- Settles O25, by induction over the buffer: each read answers and removes the front byte; the line follows the
interrupt condition, which an empty buffer does not meet. -/
theorem drainReturnsAllAndDeasserts : Obligations.DrainReturnsAllAndDeasserts := by
  intro s hf hline
  obtain ⟨evs, hrun⟩ := execAll_drain s.rx hf rfl
  have hend := execAll_keeps (P := fun s => s.line = irq s) (fun _ _ _ _ => exec_line_eq_irq) hline hrun
  exact ⟨_, hrun, rfl, hend.trans (irq_eq_false_iff.mpr fun _ => rfl), rfl, rfl⟩

/-- Settles O26: the pending bit means a non-empty buffer, which only an RXFIFO read can empty, and a read of a
non-empty buffer answers a zero-extended byte. -/
theorem pendingThenReadReturnsData : Obligations.PendingThenReadReturnsData := by
  intro s s' t u v is hip hans hbit his hrun hread
  obtain rfl := eq_answer_of_exec_rdIp hip
  obtain rfl : ip s = v := by simpa using hans
  have hne : t.rx ≠ [] :=
    execAll_keeps (P := fun s => s.rx ≠ [])
      (fun i hi _ _ hs h => exec_rx_ne_nil (fun n hn => his n (hn ▸ hi)) hs h)
      (s := s.answer _) (rx_ne_nil_of_ip_getLsbD hbit) hrun
  obtain ⟨b, rest, hrx⟩ := List.exists_cons_of_ne_nil hne
  refine ⟨zext32 b, ?_, by rw [zext32_getLsbD, BitVec.getLsbD_of_ge b 31 (by decide)]⟩
  rw [eq_popFront_of_exec_rdRxfifo hread, popFront_cons_eq hrx]

/-- Settles O29: at the drive points the drive ends the events of the operation's body; the other operations, and every
access of a wrong size, log no drive and leave IE and the buffer alone. -/
theorem lineDrivenAtThreePoints : Obligations.LineDrivenAtThreePoints := by
  intro i s t h
  obtain ⟨-, ⟨hsize, rfl⟩ | ⟨a, ha, hsize, rfl⟩⟩ := exec_next h
  · refine ⟨opEvents i s, opBody_log i s, ?_⟩
    by_cases hdrive : DrivesLine i s
    · exact .inl ⟨hdrive, hdrive.opEvents_eq⟩
    · obtain ⟨hevs, hie, hrx⟩ := opBody_of_not_drivesLine hdrive hsize
      exact .inr ⟨hdrive, hevs, hie, hrx, State.line_of_no_drive (opBody_log i s) hevs⟩
  · have hnot : ¬ DrivesLine i s := fun hdrive => hsize (hdrive.size_eq ha)
    exact ⟨_, raiseFault_log .., .inr ⟨hnot, by simp [Event.isDrive], rfl, rfl, raiseFault_line ..⟩⟩

/-- Settles O31: IE enters an operation other than its own read through the interrupt condition alone, which sees only
the RXWM bit. -/
theorem onlyRxwmBitMatters : Obligations.OnlyRxwmBitMatters := fun _ _ _ hbit hi => exec_setIe_of_rxwm_eq hbit hi

/-- Settles O33, by induction over the run: each step leaves what it writes or what was there. -/
theorem registersHoldLastWrite : Obligations.RegistersHoldLastWrite :=
  trace_induction (P := HoldsLastWrites) holdsLastWrites_nil fun _ _ _ _ _ hexec =>
    holdsLastWrites_cons (x := ⟨_, _, _⟩) (exec_stored hexec)

/-- Settles O36, by induction over reachability: the invariant gives the bound, and the line by the interrupt
condition. -/
theorem reachableLineAndBound : Obligations.ReachableLineAndBound := by
  intro s h
  obtain ⟨-, hle, hline⟩ := reachable_inv h
  exact ⟨hle, by rw [hline, irq_eq_true_iff]⟩

/-- Settles O38, by induction over the run: each step sends exactly the byte it is asked to send. -/
theorem sentBytesAreTheWrites : Obligations.SentBytesAreTheWrites :=
  trace_induction (P := SendsItsWrites) sendsItsWrites_nil fun _ _ _ _ _ hexec =>
    sendsItsWrites_cons (x := ⟨_, _, _⟩) (exec_sentBytes hexec)

/-- Settles O39: an operation logs the events of its body, of which there are at most two and one diagnostic exactly
when it raises a fault, or F_WIDTH's diagnostic; it answers at most one value. -/
theorem outputsOnlyGrow : Obligations.OutputsOnlyGrow := by
  intro i s t h
  obtain ⟨evs, hlog, hlen, hfault⟩ : ∃ evs, t.log = s.log ++ evs ∧ evs.length ≤ 2 ∧
      (t.faulted = true ↔ ∃ k off dir value, evs = [.diagnostic k off dir value]) := by
    obtain ⟨hf, ⟨-, rfl⟩ | ⟨a, -, -, rfl⟩⟩ := exec_next h
    · exact ⟨_, opBody_log i s, opEvents_length_le i s, opBody_faulted_iff_diagnostic hf i⟩
    · exact ⟨_, raiseFault_log .., by simp, iff_of_true rfl ⟨_, _, _, _, rfl⟩⟩
  obtain ⟨as, hans, hone⟩ : ∃ as, t.answers = s.answers ++ as ∧ as.length ≤ 1 := by
    obtain hnone | ⟨a, ha⟩ := exec_answers h
    · exact ⟨[], by simpa using hnone, by simp⟩
    · exact ⟨[a], ha, le_rfl⟩
  refine ⟨exec_cfg h, exec_requests h, ⟨evs, hlog.symm⟩, ⟨as, hans.symm⟩, ?_, ?_, ?_⟩
  · rw [hans, List.length_append]
    omega
  · rw [hlog, List.length_append]
    omega
  · simp only [hfault, hlog, List.append_cancel_left_eq]

/-- Settles O41: in a live state with valid parameters the decoder's answer decides the step, and every operation it
answers goes on. -/
theorem liveStateAlwaysSteps : Obligations.LiveStateAlwaysSteps := by
  refine fun s hf hv => ⟨step_idle hf hv, fun r rest hreq => ?_⟩
  cases hdec : decode s.cfg r with
  | instr i =>
    obtain ⟨t, ht⟩ := exec_live (s := s.setRequests rest) hf i
    exact .inl ⟨⟨i, rfl⟩, t, (step_instr hf hv hreq hdec).trans ht, exec_requests ht⟩
  | rejected why => exact .inr ⟨why, rfl, step_rejected hf hv hreq hdec⟩

/-- Settles O45: the two directions of address decode, register and none. -/
theorem addressDecodeIsExact : Obligations.AddressDecodeIsExact :=
  fun _ _ hv => ⟨fun _ => decodeOff_eq_some_iff hv, ne_off_of_decodeOff_eq_none, decodeOff_eq_none⟩

/-- Settles O46: the raw fields of a descriptor are its kind and its selector, by which the decoder rejects; what it
does not reject is well formed. -/
theorem refusedDescriptorsExactly : Obligations.RefusedDescriptorsExactly := by
  rintro c d ops kind sel rfl rfl
  rw [← toNat_bits_kindOf, ← selOf_eq_mod]
  exact ⟨decode_rejected_iff c d ops, fun _ => decode_instr_wf⟩

/-- Settles O48: a decoded operation is encoded with the kind and the selector it was decoded from, which determine the
descriptor. -/
theorem encodeOfDecode : Obligations.EncodeOfDecode := by
  intro c d ops i hextra h
  have hdesc := descriptor_kindOf_selOf hextra
  obtain ⟨hk, -, rfl⟩ | ⟨hk, -, rfl⟩ | ⟨hk, hsel, rfl⟩ | ⟨hk, ⟨hsel, rfl⟩ | ⟨hsel, rfl⟩ | ⟨hsel, rfl⟩⟩ :=
    decode_instr h
  · exact ⟨_, by rw [encode_decodeRead, encodeRead, ← hk, hdesc]⟩
  · exact ⟨_, by rw [encode_decodeWrite, encodeWrite, ← hk, hdesc]⟩
  all_goals exact ⟨_, by rw [encode, ← hsel, ← hk, hdesc]⟩

/-- Settles O51: a line's offset is in the window, so `sel` holds it and its request decodes to that access. -/
theorem busLinesMeanTheirAccess : Obligations.BusLinesMeanTheirAccess := by
  intro c size g v _ hlt
  have hsel := Config.lt_two_pow_sel hlt
  exact ⟨⟨_, _, if_pos hsel, decode_encodeRead hlt size, busAccessOf_decodeRead c _ size⟩,
    ⟨_, _, if_pos hsel, decode_encodeWrite hlt size v, busAccessOf_decodeWrite c _ size v⟩⟩

/-- Settles O52: an address of the window is routed to its offset, whose request decodes to that access. -/
theorem routedAccessesReachTheBlock : Obligations.RoutedAccessesReachTheBlock := by
  intro c off size v _ hlt
  have hroute : route c (c.base + off) = some off := route_eq_some_iff.mpr ⟨rfl, hlt⟩
  exact ⟨⟨_, _, by rw [busReadRequest, hroute, Option.map_some], decode_encodeRead hlt size,
      busAccessOf_decodeRead c off size⟩,
    ⟨_, _, by rw [busWriteRequest, hroute, Option.map_some], decode_encodeWrite hlt size v,
      busAccessOf_decodeWrite c off size v⟩⟩

/-- Settles O1: every field has its value by definition, and the default parameters meet the constraints. -/
theorem resetStateValues : Obligations.ResetStateValues := by
  obtain ⟨-, -, hline⟩ := inv_initial valid_thisHardware
  exact ⟨rfl, rfl, rfl, rfl, rfl, rfl, rfl, rfl, rfl, rfl, hline.symm, valid_thisHardware⟩

/-- Settles O10: a live 4-byte write runs its body, which is one raised fault. -/
theorem undefinedWritesFault : Obligations.UndefinedWritesFault :=
  ⟨fun _ _ hf => ⟨exec_four hf rfl rfl, exec_four hf rfl rfl⟩,
    fun _ ops hv => ⟨decode_writeDescriptor_off hv .rxfifo ops, decode_writeDescriptor_off hv .ip ops⟩⟩

/-- Settles O20: a live backend operation runs its body, which is nothing for an event and one answer for a
reconnect. -/
theorem lifecycleChangesNothing : Obligations.LifecycleChangesNothing :=
  ⟨fun _ _ hf => ⟨exec_backend hf rfl, exec_backend hf rfl⟩, fun _ _ _ => ⟨rfl, rfl⟩⟩

/-- Settles O35: an empty buffer and an undriven line meet the invariant, whatever the valid parameters. -/
theorem initialStateMeetsInvariant : Obligations.InitialStateMeetsInvariant :=
  ⟨fun _ => inv_initial, inv_initial valid_thisHardware⟩

/-- Settles O40: a live step runs the decoded operation, and in a faulted state both stop for the same reason. -/
theorem stepRunsDecodedRequest : Obligations.StepRunsDecodedRequest := by
  intro s r rest i hv hreq hdec
  obtain hf | hf := Bool.eq_false_or_eq_true s.faulted
  · exact (step_faulted hf).trans (exec_faulted (s := s.setRequests rest) hf i).symm
  · exact step_instr hf hv hreq hdec

/-- Settles O42: each request named is one the decoder rejects, by the kind and the selector of its descriptor. -/
theorem refusalsByName : Obligations.RefusalsByName := by
  refine ⟨fun s hf => ⟨step_badConfiguration hf, fun hcap hv => ?_⟩, fun s r rest hf hv hreq => ⟨?_, ?_⟩⟩
  · exact hv.capacity_pos.ne' hcap
  · rintro off rfl
    exact step_rejected hf hv hreq rfl
  · intro extra sel ops hsel
    refine ⟨fun hout => ⟨?_, ?_⟩, fun hne => ?_, fun hthree => ?_⟩
    · rintro rfl
      exact step_rejected hf hv hreq (decode_ofFields_busRead_outside hsel hout ops)
    · rintro rfl
      exact step_rejected hf hv hreq (decode_ofFields_busWrite_outside hsel hout ops)
    · rintro rfl
      exact step_rejected hf hv hreq (decode_ofFields_deliver_undefined hsel hne ops)
    · rintro rfl
      exact step_rejected hf hv hreq (decode_ofFields_control_undefined hsel hthree ops)

/-- Settles O43: the step of entry `k` of the list replaces that entry, and no other. -/
theorem instancesAreIndependent : Obligations.InstancesAreIndependent := by
  intro sys sys' k h
  unfold systemStep at h
  split at h
  next t hstep =>
    cases h
    exact ⟨List.length_set, fun j hj => List.getElem?_set_ne (Ne.symm hj), t, hstep, List.getElem?_set_self k.isLt⟩
  · cases h
  · cases h

/-- Settles O44: the decoder evaluated at each word. -/
theorem opcodeMapWords : Obligations.OpcodeMapWords :=
  ⟨rfl, rfl, rfl, rfl, rfl, rfl, rfl, rfl, rfl, rfl, rfl, rfl⟩

/-- Settles O49: routing answers an offset exactly inside the window, so outside it there is no request. -/
theorem routingByWindow : Obligations.RoutingByWindow := by
  refine ⟨fun c addr off => route_eq_some_iff, fun c addr size v hout => ?_⟩
  have hroute : route c addr = none := route_eq_none hout
  exact ⟨by rw [busReadRequest, hroute, Option.map_none], by rw [busWriteRequest, hroute, Option.map_none]⟩

/-- Settles O50: adjacent lanes concatenate, so the four lanes in order of significance are the whole value. -/
theorem lanesCarryTheValue : Obligations.LanesCarryTheValue := by
  refine fun o v => ⟨?_, ?_, rfl⟩
  · cases o with
    | littleEndian => exact ⟨_, _, _, _, rfl, append_lanes v⟩
    | bigEndian => exact ⟨_, _, _, _, rfl, append_lanes v⟩
  · exact congrArg some (lowByte_eq_extractLsb' v).symm

/-- Settles O53: the kind is read back at every width of `sel`, and so are the three selectors. -/
theorem backendWordsAtEveryWidth : Obligations.BackendWordsAtEveryWidth :=
  fun c extra ops =>
    ⟨decode_ofFields_deliver c extra ops, decode_ofFields_canAccept c extra ops,
      decode_ofFields_backendEvent c extra ops, decode_ofFields_reconnect c extra ops⟩

end
